-- ==== Sys2Proof/Word.lean ====
section
/-!
DEFINITION. The widths the part computes with: bytes of a line, the 32-bit registers of the window, and byte masks.
-/

namespace Sys2Proof

/-- One byte of a line. -/
abbrev Byte := BitVec 8

/-- One 32-bit register value or system address (R1, R169). -/
abbrev Word := BitVec 32

/-- A byte mask: flag i says whether byte i of the line is covered (00_scope, Byte masks). -/
abbrev Mask := BitVec 64

/-- The 64 bytes of a line, byte 0 first (00_scope, Line spaces). -/
abbrev LineData := List Byte

/-- A mask is full when all 64 flags are set (00_scope, Byte masks). -/
abbrev Mask.full : Mask := BitVec.allOnes 64

/-- The mask that covers nothing. -/
abbrev Mask.empty : Mask := 0#64

end Sys2Proof
end

