-- ==== Sys2Proof/Syntax.lean ====
section
/-!
DEFINITION. The commands of the part: one constructor per row of spec/opcode_table.json, with the row's operands,
and the vocabulary those operands are written in.
-/

namespace Sys2Proof

/-- The two system ports (R1). -/
inductive Port where
  | a
  | b
deriving DecidableEq, Repr

/-- The kind of a transaction or of a sequence target (R1, R149). -/
inductive Access where
  | read
  | write
deriving DecidableEq, Repr

/-- A transaction presented at a port (R1); `data` holds one byte for each byte of a WRITE's size. -/
structure Transaction where
  kind : Access
  addr : Word
  size : Nat
  data : List Byte
deriving DecidableEq, Repr

/-- The ECC status of an array read (R81). -/
inductive Ecc where
  | clean
  | corrected (bits : Nat)
  | uncorrectable
deriving DecidableEq, Repr

/-- What the remap table knows of a moved line's contents (R102); a PARTIAL line carries its valid mask. -/
inductive DataState where
  | intact
  | poisoned
  | partialOf (valid : Mask)
deriving DecidableEq, Repr

/-- The cause of the reassign that made a remap entry (R100). -/
inductive Origin where
  | programFail
  | relocated
  | candidateFail
  | candidateOverflow
  | mergeFail
  | retireCommand
deriving DecidableEq, Repr

/-- The pool state of a spare slot (R103). -/
inductive PoolState where
  | free
  | inUse
  | dead
deriving DecidableEq, Repr

/-- Write mode of a class (R41). -/
inductive WriteMode where
  | posted
  | through
deriving DecidableEq, Repr

/-- Patrol field of a class (R41). -/
inductive PatrolField where
  | included
  | excluded
deriving DecidableEq, Repr

/-- Relocation threshold of a class: a number of corrected bits, or OFF (R41). -/
inductive Threshold where
  | bits (k : Nat)
  | off
deriving DecidableEq, Repr

/-- A class entry (R41). -/
structure ClassEntry where
  mode : WriteMode
  patrol : PatrolField
  threshold : Threshold
deriving DecidableEq, Repr

/-- A region entry (R38). -/
structure RegionEntry where
  enabled : Bool
  first : Nat
  last : Nat
  cls : Nat
  aRead : Bool
  aWrite : Bool
  bRead : Bool
  bWrite : Bool
deriving DecidableEq, Repr

/-- The header as a loading read returns it (R26, R159): whether the format marker is the fixed marker,
and the fields beside it (log entry 7). -/
structure HeaderImage where
  marker : Bool
  geom : BitVec 2
  stored : Nat
  lockAtStart : Bool
  retain : Bool
deriving DecidableEq, Repr

/-- A slot record as a loading read returns it (R155, R160); `none` is a field that holds none of its values
(log entry 7). -/
structure RawRecord where
  state : Option PoolState
  line : Nat
  data : Option DataState
  origin : Option Origin
  generation : BitVec 8
deriving DecidableEq, Repr

/-- A class entry as a loading read returns it (R48); `none` is a field outside its range (log entry 7). -/
structure RawClass where
  mode : Option WriteMode
  patrol : Option PatrolField
  threshold : Option Threshold
deriving DecidableEq, Repr

/-- The four event groups (R177). -/
inductive Group where
  | access
  | media
  | array
  | service
deriving DecidableEq, Repr

/-- The commands of the part, one per row of the table. -/
inductive Instr where
  -- the ports
  | transactionTake (port : Port) (tx : Transaction)
  | intake (port : Port)
  | responseSend (port : Port)
  -- resets and pins
  | srstAssert
  | srstRelease
  | resetDrainWaitClose
  | porstAssert
  | porstRelease (geom : BitVec 2)
  | pwarnAssert
  | pwarnRelease
  | agntAssert
  | agntWithdraw
  -- timers
  | grantWaitExpiry
  | settleTimerExpiry
  | patrolTimerExpiry
  -- the array port
  | arrayIssue
  | systemReadComplete (ecc : Ecc) (data : LineData)
  | mergeReadComplete (ecc : Ecc) (data : LineData)
  | drainProgramComplete (ok : Bool)
  | verifyReadComplete (ecc : Ecc)
  | spareProgramComplete (ok : Bool)
  | imageProgramComplete (ok : Bool)
  | settingsProgramComplete (ok : Bool)
  | headerReadComplete (ecc : Ecc) (header : HeaderImage)
  | imageReadComplete (ecc : Ecc) (records : List RawRecord)
  | settingsReadComplete (ecc : Ecc) (classes : List RawClass) (regions : List RegionEntry)
  | repairProgramComplete (ok : Bool)
  | formatProgramComplete (ok : Bool)
  | relocationSourceReadComplete (ecc : Ecc) (data : LineData)
  | patrolReadComplete (ecc : Ecc)
  -- the part's own steps
  | drainSelect
  | claimGrant (line : Nat)
  | waitingWritePlace
  | throughWriteClaimRequest (port : Port)
  | relocationJobStart
  | reassignServe
  | mergeFailStorageServe
  | dataStateRecordingServe
  | noDataClaimRequest
  | reserveWaitClose
  | drainAllComplete
  -- command codes
  | readLimits
  | setFence
  | fenceLock
  | fenceUnlock (maintEn : Bool)
  | fenceFreeze
  | loadRegion
  | loadClass
  | saveSettings
  | loadRange
  | loadTarget
  | sequenceSet
  | sequenceArm
  | sequenceDisarm
  | drainAll
  | setReserve
  | retireLine
  | readRemap
  | readSlot
  | readCandidate
  | patrolStart
  | patrolStop
  | patrolStatus
  | setGrantLimit
  | formatArray
  | cancel
  | unknownCommand (code : BitVec 8)
  -- register frames
  | flagsWrite (group : Group) (value : Word)
  | enablesWrite (group : Group) (value : Word)
  | groupEnableWrite (value : Word)
  | incidentPop (value : Word)
  | watchHitsWrite (value : Word)
  | registerWrite (index : BitVec 7) (value : Word)
  | commandWriteWhileBusy (code : BitVec 8)
deriving DecidableEq, Repr

end Sys2Proof
end

