-- ==== Sys2Proof/WellFormed.lean ====
section
/-!
DEFINITION. The static check of a command: its operands lie in the ranges the spec gives them.
-/

namespace Sys2Proof

/-- A CORRECTED status counts 1 to 8 bits (R81). -/
def Ecc.ok : Ecc → Bool
  | .clean => true
  | .corrected k => decide (1 ≤ k ∧ k ≤ 8)
  | .uncorrectable => true

/-- A WRITE carries one byte for each byte of its size, a READ none (R1). -/
def Transaction.ok (t : Transaction) : Bool :=
  match t.kind with
  | .write => t.data.length == t.size
  | .read => t.data.isEmpty

/-- The codes 0x01 to 0x19 name commands, CANCEL is 0x19 (R175). -/
def namesCommand (code : BitVec 8) : Bool :=
  decide (1 ≤ code.toNat ∧ code.toNat ≤ 0x19)

/-- The registers that have rows of their own: COMMAND, the flags and enables registers, GROUP_ENABLE,
INCIDENT_POP and WATCH_HITS (R171). -/
def ownRow (index : BitVec 7) : Bool :=
  let n := index.toNat
  n == 0x02 || n == 0x15 || (decide (0x16 ≤ n) && decide (n ≤ 0x1D)) || n == 0x1F || n == 0x24

/-- A command whose operands have the shape its row gives them. -/
def Instr.wellFormed : Instr → Bool
  | .transactionTake _ t => t.ok
  | .intake _ => true
  | .responseSend _ => true
  | .srstAssert => true
  | .srstRelease => true
  | .resetDrainWaitClose => true
  | .porstAssert => true
  | .porstRelease _ => true
  | .pwarnAssert => true
  | .pwarnRelease => true
  | .agntAssert => true
  | .agntWithdraw => true
  | .grantWaitExpiry => true
  | .settleTimerExpiry => true
  | .patrolTimerExpiry => true
  | .arrayIssue => true
  | .systemReadComplete e d => e.ok && d.length == 64
  | .mergeReadComplete e d => e.ok && d.length == 64
  | .drainProgramComplete _ => true
  | .verifyReadComplete e => e.ok
  | .spareProgramComplete _ => true
  | .imageProgramComplete _ => true
  | .settingsProgramComplete _ => true
  | .headerReadComplete e _ => e.ok
  | .imageReadComplete e rs => e.ok && rs.length == 4
  | .settingsReadComplete e cs rs => e.ok && cs.length == 4 && rs.length == 4
  | .repairProgramComplete _ => true
  | .formatProgramComplete _ => true
  | .relocationSourceReadComplete e d => e.ok && d.length == 64
  | .patrolReadComplete e => e.ok
  | .drainSelect => true
  | .claimGrant _ => true
  | .waitingWritePlace => true
  | .throughWriteClaimRequest _ => true
  | .relocationJobStart => true
  | .reassignServe => true
  | .mergeFailStorageServe => true
  | .dataStateRecordingServe => true
  | .noDataClaimRequest => true
  | .reserveWaitClose => true
  | .drainAllComplete => true
  | .readLimits => true
  | .setFence => true
  | .fenceLock => true
  | .fenceUnlock _ => true
  | .fenceFreeze => true
  | .loadRegion => true
  | .loadClass => true
  | .saveSettings => true
  | .loadRange => true
  | .loadTarget => true
  | .sequenceSet => true
  | .sequenceArm => true
  | .sequenceDisarm => true
  | .drainAll => true
  | .setReserve => true
  | .retireLine => true
  | .readRemap => true
  | .readSlot => true
  | .readCandidate => true
  | .patrolStart => true
  | .patrolStop => true
  | .patrolStatus => true
  | .setGrantLimit => true
  | .formatArray => true
  | .cancel => true
  | .unknownCommand c => !namesCommand c
  | .flagsWrite _ _ => true
  | .enablesWrite _ _ => true
  | .groupEnableWrite _ => true
  | .incidentPop _ => true
  | .watchHitsWrite _ => true
  | .registerWrite i _ => !ownRow i
  | .commandWriteWhileBusy c => c != 0x19#8

end Sys2Proof
end

