-- ==== Sys2Proof/Decode.lean ====
section
/-!
DEFINITION. Words to commands.
spec/opcode_table.json gives no row any bits, so no word of the table spells a command (log entry 28).
What the spec does encode is the five-byte write frame of the management link (R169, R171, R173, R175): `writeFrame`
reads the row that a write frame is.
-/

namespace Sys2Proof

/-- The command a word spells by the table's bits: none, since the table gives no bits (log entry 28). -/
def decodeTableWord (_nbits _w : Nat) : Option Instr := none

/-- The command code of a row that has one (R175). -/
def Instr.commandCode : Instr → Option (BitVec 8)
  | .readLimits => some 0x01#8
  | .setFence => some 0x02#8
  | .fenceLock => some 0x03#8
  | .fenceUnlock _ => some 0x04#8
  | .fenceFreeze => some 0x05#8
  | .loadRegion => some 0x06#8
  | .loadClass => some 0x07#8
  | .saveSettings => some 0x08#8
  | .loadRange => some 0x09#8
  | .loadTarget => some 0x0A#8
  | .sequenceSet => some 0x0B#8
  | .sequenceArm => some 0x0C#8
  | .sequenceDisarm => some 0x0D#8
  | .drainAll => some 0x0E#8
  | .setReserve => some 0x0F#8
  | .retireLine => some 0x10#8
  | .readRemap => some 0x11#8
  | .readSlot => some 0x12#8
  | .readCandidate => some 0x13#8
  | .patrolStart => some 0x14#8
  | .patrolStop => some 0x15#8
  | .patrolStatus => some 0x16#8
  | .setGrantLimit => some 0x17#8
  | .formatArray => some 0x18#8
  | .cancel => some 0x19#8
  | .unknownCommand c => some c
  | .commandWriteWhileBusy c => some c
  | _ => none

/-- The row of a command code written while busy is clear (R173, R175); `maintEn` is the level of MAINT_EN at that
event, which FENCE_UNLOCK samples (R32, log entry 15). -/
def commandOfCode (maintEn : Bool) (code : BitVec 8) : Instr :=
  match code.toNat with
  | 0x01 => .readLimits
  | 0x02 => .setFence
  | 0x03 => .fenceLock
  | 0x04 => .fenceUnlock maintEn
  | 0x05 => .fenceFreeze
  | 0x06 => .loadRegion
  | 0x07 => .loadClass
  | 0x08 => .saveSettings
  | 0x09 => .loadRange
  | 0x0A => .loadTarget
  | 0x0B => .sequenceSet
  | 0x0C => .sequenceArm
  | 0x0D => .sequenceDisarm
  | 0x0E => .drainAll
  | 0x0F => .setReserve
  | 0x10 => .retireLine
  | 0x11 => .readRemap
  | 0x12 => .readSlot
  | 0x13 => .readCandidate
  | 0x14 => .patrolStart
  | 0x15 => .patrolStop
  | 0x16 => .patrolStatus
  | 0x17 => .setGrantLimit
  | 0x18 => .formatArray
  | 0x19 => .cancel
  | _ => .unknownCommand code

/-- The row of a 32-bit value written to a register index (R171, R173). -/
def rowOfWrite (busy maintEn : Bool) (index : BitVec 7) (value : Word) : Instr :=
  match index.toNat with
  | 0x02 =>
    let code := value.setWidth 8
    if busy && code != 0x19#8 then .commandWriteWhileBusy code else commandOfCode maintEn code
  | 0x15 => .groupEnableWrite value
  | 0x16 => .flagsWrite .access value
  | 0x17 => .enablesWrite .access value
  | 0x18 => .flagsWrite .media value
  | 0x19 => .enablesWrite .media value
  | 0x1A => .flagsWrite .array value
  | 0x1B => .enablesWrite .array value
  | 0x1C => .flagsWrite .service value
  | 0x1D => .enablesWrite .service value
  | 0x1F => .incidentPop value
  | 0x24 => .watchHitsWrite value
  | _ => .registerWrite index value

/-- The row of a frame (R169): byte 0 carries the write bit and the index, bytes 1 to 4 the value, most significant
byte first; a read frame, and a frame cut off before its fifth byte is complete, is no row; bytes after the fifth are
ignored (log entry 22). PORST is judged where the row is taken, at the end of the fifth byte, and not at the earlier bytes
(log entry 34). -/
def writeFrame (busy maintEn : Bool) : List Byte → Option Instr
  | b0 :: b1 :: b2 :: b3 :: b4 :: _ =>
    if b0.getLsbD 7 then some (rowOfWrite busy maintEn (b0.setWidth 7) (b1 ++ b2 ++ b3 ++ b4)) else none
  | _ => none

end Sys2Proof
end

