-- ==== Sys2Proof/Config.lean ====
section
/-!
DEFINITION. The fixed numbers of the part, each with the rule that gives it.
The spec leaves no result of a command to the implementation, so there is no free value here (log entry 24).
-/

namespace Sys2Proof.Config

/-- Unanswered transactions of one port (R2). -/
abbrev portDepth : Nat := 8
/-- Entries of the Posting Buffer (R52). -/
abbrev bufferEntries : Nat := 32
/-- Free system entries at or below which drains are urgent (R68). -/
abbrev urgentFree : Nat := 8
/-- Spare slots (00_scope, R103). -/
abbrev spareSlots : Nat := 4096
/-- Image lines (00_scope, R155). -/
abbrev imageLines : Nat := 1024
/-- Free spare count at or below which posting is suspended (R71, R104). -/
abbrev lowSpares : Nat := 64
/-- Entries of the candidate list (R123). -/
abbrev candidateDepth : Nat := 32
/-- Jobs of the relocation queue (R129). -/
abbrev relocationDepth : Nat := 16
/-- Requests of the no-data queue (R107). -/
abbrev noDataDepth : Nat := 16
/-- Records of the incident queue (R183). -/
abbrev incidentDepth : Nat := 16
/-- The fifth refused unlock makes the lock EXPIRED (R32). -/
abbrev unlockLimit : Nat := 5
/-- The formatting programs: 1,024 image lines, settings lines 1 to 5, the header (R164). -/
abbrev formatPrograms : Nat := 1030

/-- The native line count of a GEOM code; code 3 is the geometry fault and has none (00_scope, R158). -/
def lNative (geom : BitVec 2) : Nat :=
  match geom.toNat with
  | 0 => 1048576
  | 1 => 2097152
  | 2 => 4194304
  | _ => 0

/-- The native user limit L_native - 5,126 (R22); 0 stands for "none" under the geometry fault. -/
def uNative (geom : BitVec 2) : Nat := lNative geom - 5126

/-- 100 µs ticks in one millisecond: the unit the model's timers count in (log entry 3). -/
abbrev ticksPerMs : Nat := 10
/-- The settle timer, 2,000 ms (R166), in ticks. -/
abbrev settleTicks : Nat := 20000

/-- The grant wait limit at the release of PORST, in ms (R87). -/
abbrev grantLimitReset : Nat := 250
/-- The staging reserve at power-on reset (R80). -/
abbrev reserveReset : Nat := 2
/-- The patrol interval at power-on reset, in 100 µs (section 7.5). -/
abbrev patrolIntervalReset : Nat := 100

end Sys2Proof.Config
end

