-- ==== Sys2Proof/Machine/State.lean ====
section
/-!
DEFINITION. The state of the part, block by block, as the spec gives it; the reasons to stop; and the state after reset.
Every type is plain data. INVENTORY.md lists each field with its rule and its reset value.
-/

namespace Sys2Proof.Machine

/-! ### Names of states -/

/-- Start-up phase (R158, R172). -/
inductive Phase where
  | geometryFault
  | loading
  | unformatted
  | formatting
  | readReady
  | repairing
  | fullReady
deriving DecidableEq, Repr

/-- Port service state (R5). -/
inductive ServiceState where
  | closed
  | resetDrain
  | start
  | inService
deriving DecidableEq, Repr

/-- Link state (R84). -/
inductive LinkState where
  | idle
  | requesting
  | granted
  | operating
  | unavailable
deriving DecidableEq, Repr

/-- Map lock state (section 2.4); the spec's OPEN is `unlocked` here. -/
inductive LockState where
  | unlocked
  | locked
  | expired
  | frozen
deriving DecidableEq, Repr

/-- The nine response codes (section 1.3). -/
inductive ResponseCode where
  | ok
  | poison
  | beyondFence
  | denied
  | watchRefused
  | unavailable
  | writeFailed
  | retry
  | malformed
deriving DecidableEq, Repr

/-- The eleven result codes (R173). -/
inductive ResultCode where
  | done
  | refusedLocked
  | refusedExpired
  | refusedFrozen
  | badParameter
  | queueFull
  | notFound
  | cancelled
  | metadataFault
  | notReady
  | unknownCommand
deriving DecidableEq, Repr

/-- The 24 event flags (chapter 11). -/
inductive Flag where
  | denied
  | beyondFence
  | watchHit
  | sequenceComplete
  | sequenceBreak
  | malformed
  | candidateAdded
  | candidateLost
  | remapped
  | dataLoss
  | sparesLow
  | sparesExhausted
  | relocationDropped
  | grantWithdrawn
  | unavailable
  | available
  | metadataFault
  | metadataDamaged
  | commandDone
  | commandOverrun
  | patrolPass
  | phaseChange
  | lockExpired
  | incidentOverflow
deriving DecidableEq, Repr

/-! ### Inputs -/

/-- The input pins, each at its present level; GEOM as sampled at the last release of PORST, MAINT_EN as last sampled. -/
structure Pins where
  porst : Bool
  srst : Bool
  pwarn : Bool
  agnt : Bool
  maintEn : Bool
  geom : BitVec 2
deriving DecidableEq, Repr

/-! ### Line Path -/

/-- The response to one transaction: its code and, for a READ, its data bytes (R1, R3). -/
structure Response where
  code : ResponseCode
  data : List Byte
deriving DecidableEq, Repr

/-- Where a taken transaction stands (R4). -/
inductive Stand where
  /-- taken; its intake checks have not been run -/
  | taken
  /-- a posted write waiting at intake for a free system entry (R57) -/
  | waiting
  /-- a through-write in progress (R20) -/
  | through
  /-- a read past intake, whose claim has been requested (R16) -/
  | reading
  /-- its answer is decided and held (R3) -/
  | decided (r : Response)
deriving DecidableEq, Repr

/-- A transaction in a port queue (R2); `serial` is the model's own taking stamp (log entry 18). -/
structure Taken where
  serial : Nat
  tx : Transaction
  stand : Stand
deriving DecidableEq, Repr

/-- A system read that has requested its claim (R16 to R18). -/
structure SystemRead where
  serial : Nat
  port : Port
  line : Nat
  offset : Nat
  size : Nat
  /-- the bytes the forwarding snapshot covers, and their values (R15) -/
  covered : Mask
  snapshot : LineData
  /-- clear once SRST has discarded its transaction (R6) -/
  answered : Bool
deriving DecidableEq, Repr

/-- The course at the array of a drain or of a through-write (R60 to R65, R73). -/
structure Course where
  line : Nat
  /-- the bytes to be written, and which they are: the entry's, or the through-write's -/
  mask : Mask
  bytes : LineData
  /-- mapped line and data state, fixed when the course begins -/
  mapped : Nat
  view : DataState
  /-- the 64-byte drain line, and the bytes of it that are known (R106) -/
  drainLine : LineData
  known : Mask
deriving DecidableEq, Repr

/-- How far a through-write has come (R72, R73). -/
inductive ThroughStage where
  | waitLine
  | waitClaim
  | course
deriving DecidableEq, Repr

/-- A through-write in progress (R20); `port` is none once it runs on without a response (R6, R74). -/
structure ThroughWrite where
  serial : Nat
  port : Option Port
  stage : ThroughStage
  course : Course
  /-- its first array operation has been issued -/
  issued : Bool
  /-- a request of it has joined the Remap Unit's work list: its reassign counts as begun (R74) -/
  listed : Bool
deriving DecidableEq, Repr

/-- The Line Path (chapter 1). -/
structure LinePath where
  queueA : List Taken
  queueB : List Taken
  drainWait : Bool
  reads : List SystemRead
  throughs : List ThroughWrite
  serial : Nat
  sentA : List Response
  sentB : List Response
deriving DecidableEq, Repr

/-! ### Fence, tables -/

/-- The Fence and Map Lock (chapter 2). -/
structure FenceLock where
  uNative : Nat
  current : Nat
  stored : Nat
  lock : LockState
  refusals : Nat
  lockAtStart : Bool
  retain : Bool
deriving DecidableEq, Repr

/-- The Region and Class Tables, working and stored (chapter 3). -/
structure Tables where
  regions : List RegionEntry
  classes : List ClassEntry
  storedRegions : List RegionEntry
  storedClasses : List ClassEntry
deriving DecidableEq, Repr

/-! ### Posting Buffer -/

/-- State of a system entry (R53). -/
inductive EntryState where
  | pending
  | draining
deriving DecidableEq, Repr

/-- A system entry (R53); `target` says that it is in the drain-all target set (R69). -/
structure SystemEntry where
  line : Nat
  mask : Mask
  data : LineData
  state : EntryState
  firstWriter : Port
  target : Bool
deriving DecidableEq, Repr

/-- A posted write waiting at intake for a free system entry (R57). -/
structure WaitingWrite where
  port : Port
  serial : Nat
  line : Nat
  mask : Mask
  data : LineData
deriving DecidableEq, Repr

/-- The Posting Buffer (chapter 4); `entries` is the age list, oldest first. -/
structure PostingBuffer where
  entries : List SystemEntry
  waiting : List WaitingWrite
  drain : Option Course
  reserve : Nat
deriving DecidableEq, Repr

/-! ### Array Link and Array Scheduler -/

/-- Kind of a claim (R92). -/
inductive ClaimKind where
  | shared
  | exclusive
deriving DecidableEq, Repr

/-- The operation a claim or a request belongs to (R92). -/
inductive Claimant where
  | read (serial : Nat)
  | drain
  | through (serial : Nat)
  | job (line : Nat)
  | noData
deriving DecidableEq, Repr

/-- A waiting request (R92). -/
structure ClaimRequest where
  kind : ClaimKind
  owner : Claimant
deriving DecidableEq, Repr

/-- The holders of a line's claims: one EXCLUSIVE holder, or SHARED holders, or none (R92). -/
inductive Holders where
  | shared (owners : List Claimant)
  | exclusive (owner : Claimant)
deriving DecidableEq, Repr

/-- A claim record (R92). -/
structure ClaimRecord where
  holders : Holders
  waiting : List ClaimRequest
deriving DecidableEq, Repr

/-- Whose course an operation belongs to: the drain in progress, or a through-write. -/
inductive Writer where
  | drain
  | through (serial : Nat)
deriving DecidableEq, Repr

/-- A line of the metadata area (00_scope). -/
inductive MetaLine where
  | image (k : Nat)
  | settings (j : Nat)
deriving DecidableEq, Repr

/-- Who asked for a metadata program (R157): the request at the head of the work list, the command in progress, or
the repair list. -/
inductive MetaAsker where
  | remap
  | command
  | repair
deriving DecidableEq, Repr

/-- The internal slot record (R105). -/
inductive SlotRecord where
  | free
  | inUse (line : Nat) (data : DataState) (origin : Origin) (generation : BitVec 8)
  | dead
deriving DecidableEq, Repr

/-- What a program carries: 64 bytes, or a metadata line in the structured form of log entry 7; `header` stands for a
line that carries the fixed format marker. -/
inductive Content where
  | bytes (d : LineData)
  | image (slots : List SlotRecord)
  | header (geom : BitVec 2) (stored : Nat) (lockAtStart retain : Bool)
  | classes (cs : List ClassEntry)
  | regions (rs : List RegionEntry)
deriving DecidableEq, Repr

/-- Read or program; a metadata program is composed when it is issued (R157). -/
inductive OpAction where
  | read
  | program (c : Content)
  | compose
deriving DecidableEq, Repr

/-- What an array operation is for (R81, R96). -/
inductive Purpose where
  | systemRead (serial : Nat)
  | mergeRead (w : Writer)
  | mappedProgram (w : Writer)
  | storageProgram (w : Writer)
  | verifyRead (w : Writer)
  | spareProgram
  | metaProgram (target : MetaLine) (askers : List MetaAsker)
  | formatProgram (n : Nat)
  | loadRead (target : MetaLine)
  | jobRead (line : Nat)
  | patrolRead (line : Nat)
deriving DecidableEq, Repr

/-- One array operation, pending or in flight (R82). -/
structure ArrayOp where
  purpose : Purpose
  arrayLine : Nat
  action : OpAction
  /-- the first operation of its drain or through-write (R96) -/
  first : Bool
  /-- it has been issued: a pending operation with this set was abandoned (R85) -/
  issued : Bool
deriving DecidableEq, Repr

/-- The eight work kinds (R96). -/
inductive WorkKind where
  | metadata
  | continuation
  | urgentDrain
  | systemRead
  | throughWrite
  | drain
  | relocation
  | patrol
deriving DecidableEq, Repr

/-- The Array Link and the Array Scheduler (chapter 5). -/
structure ArrayLink where
  work : List ArrayOp
  inFlight : Option ArrayOp
  unavailable : Bool
  limit : Nat
  waitTicks : Nat
  claims : List (Nat × ClaimRecord)
deriving DecidableEq, Repr

/-! ### Remap Unit -/

/-- A remap entry, held under its user line (R100). -/
structure RemapEntry where
  slot : Nat
  data : DataState
  origin : Origin
  generation : BitVec 8
deriving DecidableEq, Repr

/-- Who asked for a reassign with data (R106). -/
inductive Requester where
  | writer (w : Writer)
  | job (line : Nat)
deriving DecidableEq, Repr

/-- A request of the work list (R106). -/
inductive Request where
  | reassign (by_ : Requester) (line : Nat) (data : LineData) (known : Mask) (origin : Origin)
  | storage (w : Writer) (line : Nat) (data : LineData) (mask : Mask)
  | recording (w : Writer) (line : Nat) (known : Mask)
  | noData (line : Nat) (origin : Origin)
deriving DecidableEq, Repr

/-- What the request at the head of the work list waits for (R109 to R117). -/
inductive Serving where
  /-- the spare program of a trial slot (R109) -/
  | spare (slot : Nat)
  /-- the DEAD record's program after a dead spare (R109) -/
  | deadRecord (slot : Nat)
  /-- the IN_USE record's program of the trial slot (R110) -/
  | inUse (slot : Nat)
  /-- the DEAD record's program of the replaced slot (R111) -/
  | oldSlot (slot : Nat)
  /-- the program of a POISONED line's spare (R117) -/
  | storage
  /-- the image program of a data state recording, and the state to be placed (R115) -/
  | recording (state : DataState)
deriving DecidableEq, Repr

/-- A reassign with no data in the no-data queue (R107). -/
structure NoDataRequest where
  line : Nat
  origin : Origin
deriving DecidableEq, Repr

/-- The Remap Unit (chapter 6); the table is held by user line and the records by slot, keys rising. -/
structure RemapUnit where
  table : List (Nat × RemapEntry)
  dead : List Nat
  records : List (Nat × SlotRecord)
  loaded : Bool
  fault : Bool
  workList : List Request
  serving : Option Serving
  noData : List NoDataRequest
  noDataAsked : Bool
deriving DecidableEq, Repr

/-! ### Media Health Unit -/

/-- Source of a candidate (R123). -/
inductive Source where
  | read
  | patrol
  | relocation
deriving DecidableEq, Repr

/-- A candidate list entry (R123). -/
structure Candidate where
  line : Nat
  source : Source
deriving DecidableEq, Repr

/-- Reason of a relocation job (R129). -/
inductive Reason where
  | patrolCorrected
  | readCorrected
  | candidateRecovered
  | retireCommand
deriving DecidableEq, Repr

/-- A job of the relocation queue (R129). -/
structure QueuedJob where
  line : Nat
  reason : Reason
deriving DecidableEq, Repr

/-- A relocation job in flight with its staging entry (R75, R131). -/
structure Job where
  line : Nat
  reason : Reason
  known : Mask
  staged : Option LineData
deriving DecidableEq, Repr

/-- Patrol state (section 7.5). -/
inductive PatrolMode where
  | stopped
  | singlePass
  | continuous
deriving DecidableEq, Repr

/-- The patrol (section 7.5); the timer runs while the mode is not STOPPED. -/
structure Patrol where
  mode : PatrolMode
  cursor : Nat
  passes : Nat
  interval : Nat
  ticks : Nat
  since : Nat
  outstanding : Option Nat
deriving DecidableEq, Repr

/-- The Media Health Unit (chapter 7). -/
structure MediaHealth where
  candidates : List Candidate
  queue : List QueuedJob
  jobs : List Job
  patrol : Patrol
deriving DecidableEq, Repr

/-! ### Watch Unit -/

/-- Kinds a range watch covers (R144). -/
inductive WatchKinds where
  | read
  | write
  | both
deriving DecidableEq, Repr

/-- Ports a range watch covers (R144). -/
inductive WatchPorts where
  | a
  | b
  | both
deriving DecidableEq, Repr

/-- Action of a range watch (R144). -/
inductive WatchAction where
  | note
  | refuse
deriving DecidableEq, Repr

/-- A range watch entry (R144). -/
structure RangeWatch where
  enabled : Bool
  first : Nat
  last : Nat
  kinds : WatchKinds
  ports : WatchPorts
  action : WatchAction
  tag : BitVec 8
  hit : Bool
deriving DecidableEq, Repr

/-- A target of the sequence watch (R149). -/
structure Target where
  addr : Nat
  kind : Access
  tag : BitVec 8
deriving DecidableEq, Repr

/-- The Watch Unit (chapter 8). -/
structure WatchUnit where
  ranges : List RangeWatch
  targets : List Target
  count : Nat
  index : Nat
  armed : Bool
deriving DecidableEq, Repr

/-! ### Metadata Controller, Command Engine, Event Controller -/

/-- The Metadata Controller (chapter 9). -/
structure MetaControl where
  phase : Phase
  repair : List MetaLine
  settleTicks : Option Nat
deriving DecidableEq, Repr

/-- A command in progress and what it waits for (R173, R174). -/
inductive InProgress where
  /-- SET_FENCE STORED, FENCE_LOCK or FENCE_UNLOCK with "also at start": the program of settings line 0 (R26) -/
  | header
  /-- SAVE_SETTINGS: the settings lines still to be placed after the present one (R49) -/
  | save (rest : List Nat)
  /-- FORMAT_ARRAY (R164) -/
  | format
  /-- DRAIN_ALL: entries in the set when taken, discards so far (R69) -/
  | drainAll (taken discarded : Nat)
  /-- SET_RESERVE with a reserve wait open for the new reserve (R76) -/
  | reserve (new : Nat)
deriving DecidableEq, Repr

/-- The Management Link and Command Engine (chapter 10); the busy flag is `busy.isSome`. -/
structure Management where
  command : BitVec 8
  result : BitVec 8
  params : List Word
  rdata : List Word
  copy : List Word
  busy : Option InProgress
deriving DecidableEq, Repr

/-- The flags register and the enables register of a group (R177, R180). -/
structure EventGroup where
  flags : Word
  enables : Word
deriving DecidableEq, Repr

/-- Kind of an incident record (R178). -/
inductive IncidentKind where
  | watchHit
  | sequenceComplete
  | sequenceBreak
  | dataLoss
  | remapped
  | candidateAdded
  | candidateLost
  | metadataDamaged
deriving DecidableEq, Repr

/-- An incident record; an absent field is none (R184). -/
structure Incident where
  kind : IncidentKind
  line : Option Nat
  port : Option Port
  detail : Option (BitVec 8)
  index : Option Nat
deriving DecidableEq, Repr

/-- The Event Controller (chapter 11). -/
structure Events where
  access : EventGroup
  media : EventGroup
  array : EventGroup
  service : EventGroup
  groupEnable : Word
  incidents : List Incident
  popped : Option Incident
deriving DecidableEq, Repr

/-! ### The whole part -/

/-- The part, and the queue of commands that wait, first in, first out. -/
structure State where
  pins : Pins
  path : LinePath
  fence : FenceLock
  tables : Tables
  buffer : PostingBuffer
  link : ArrayLink
  remap : RemapUnit
  health : MediaHealth
  watch : WatchUnit
  metaCtl : MetaControl
  mgmt : Management
  events : Events
  pending : List Instr
deriving DecidableEq, Repr

/-- Why a step could stop with a fault. No command of the spec stops the part (log entry 26), so this type has no
constructor and nothing can raise one. -/
inductive Fault where
deriving DecidableEq, Repr

/-- Why a step could be refused. -/
inductive Refusal where
  /-- Raised by `exec` alone, for a command that has no meaning yet: safe. No arm raises it now. -/
  | notModelled (mnemonic : String)
deriving DecidableEq, Repr

/-! ### Reset -/

/-- Format default of a region entry (R38). -/
def regionDefault : RegionEntry :=
  { enabled := false, first := 0, last := 0, cls := 0, aRead := true, aWrite := true, bRead := true, bWrite := true }

/-- Format default of a class entry (R41). -/
def classDefault : ClassEntry :=
  { mode := .posted, patrol := .included, threshold := .bits 3 }

/-- Cleared value of a range watch entry (R144). -/
def RangeWatch.cleared : RangeWatch :=
  { enabled := false, first := 0, last := 0, kinds := .read, ports := .a, action := .note, tag := 0#8, hit := false }

/-- A target at the release of PORST (R149). -/
def Target.atRelease : Target := { addr := 0, kind := .read, tag := 0#8 }

/-- A flags and enables pair with everything clear (R185). -/
def EventGroup.clear : EventGroup := { flags := 0#32, enables := 0#32 }

/-- The read of settings line 0 that LOADING begins with (R159). -/
def headerRead (uNative : Nat) : ArrayOp :=
  { purpose := .loadRead (.settings 0), arrayLine := uNative + 5120, action := .read, first := false, issued := false }

/-- The power-on values of every block under the given pins and GEOM code's user limit, phase and pending work;
the columns "After power-on reset" of R36, R51, R99, R122, R143, R154, R168, R171, R185 and rules R2, R8, R80. -/
def State.powerOn (pins : Pins) (uNative : Nat) (phase : Phase) (work : List ArrayOp) (queue : List Instr) : State :=
  { pins := pins
    path :=
      { queueA := [], queueB := [], drainWait := false, reads := [], throughs := [], serial := 0, sentA := [], sentB := [] }
    fence :=
      { uNative := uNative, current := uNative, stored := uNative, lock := .unlocked, refusals := 0
        lockAtStart := false, retain := false }
    tables :=
      { regions := List.replicate 16 regionDefault
        classes := List.replicate 4 classDefault
        storedRegions := List.replicate 16 regionDefault
        storedClasses := List.replicate 4 classDefault }
    buffer := { entries := [], waiting := [], drain := none, reserve := Config.reserveReset }
    link :=
      { work := work, inFlight := none, unavailable := false, limit := Config.grantLimitReset, waitTicks := 0
        claims := [] }
    remap :=
      { table := [], dead := [], records := [], loaded := false, fault := false, workList := [], serving := none
        noData := [], noDataAsked := false }
    health :=
      { candidates := [], queue := [], jobs := []
        patrol :=
          { mode := .stopped, cursor := 0, passes := 0, interval := Config.patrolIntervalReset, ticks := 0, since := 0
            outstanding := none } }
    watch :=
      { ranges := List.replicate 8 RangeWatch.cleared, targets := List.replicate 16 Target.atRelease, count := 1
        index := 0, armed := false }
    metaCtl := { phase := phase, repair := [], settleTicks := none }
    mgmt :=
      { command := 0#8, result := 0#8, params := List.replicate 8 0#32, rdata := List.replicate 8 0#32, copy := []
        busy := none }
    events :=
      { access := .clear, media := .clear, array := .clear, service := .clear, groupEnable := 0#32, incidents := []
        popped := none }
    pending := queue }

/-- The part at the release of PORST, with a GEOM code sampled there (R158): GEOMETRY_FAULT for code 3, and otherwise
LOADING with the header read placed. -/
def State.atRelease (pins : Pins) (geom : BitVec 2) (queue : List Instr) : State :=
  let p : Pins := { pins with porst := false, geom := geom }
  if geom = 3#2 then State.powerOn p 0 .geometryFault [] queue
  else State.powerOn p (Config.uNative geom) .loading [headerRead (Config.uNative geom)] queue

/-- The machine right after reset: the release of PORST with GEOM 00 and every other input deasserted (log entry 5). -/
def State.reset : State :=
  State.atRelease { porst := true, srst := false, pwarn := false, agnt := false, maintEn := false, geom := 0#2 } 0#2 []

end Sys2Proof.Machine
end

