-- ==== Sys2Proof/Machine/Flags.lean ====
section
/-!
DEFINITION. The Event Controller: posting a cause to its flag, writing and popping incident records, the pending bits
and ALERT (chapter 11, R177, R178).
-/

namespace Sys2Proof.Machine

/-- The group of a flag (R177). -/
def Flag.group : Flag → Group
  | .denied | .beyondFence | .watchHit | .sequenceComplete | .sequenceBreak | .malformed => .access
  | .candidateAdded | .candidateLost | .remapped | .dataLoss | .sparesLow | .sparesExhausted
  | .relocationDropped => .media
  | .grantWithdrawn | .unavailable | .available | .metadataFault | .metadataDamaged => .array
  | .commandDone | .commandOverrun | .patrolPass | .phaseChange | .lockExpired | .incidentOverflow => .service

/-- The bit position of a flag in its group's registers (R177). -/
def Flag.position : Flag → Nat
  | .denied => 0
  | .beyondFence => 1
  | .watchHit => 2
  | .sequenceComplete => 3
  | .sequenceBreak => 4
  | .malformed => 5
  | .candidateAdded => 0
  | .candidateLost => 1
  | .remapped => 2
  | .dataLoss => 3
  | .sparesLow => 4
  | .sparesExhausted => 5
  | .relocationDropped => 6
  | .grantWithdrawn => 0
  | .unavailable => 1
  | .available => 2
  | .metadataFault => 3
  | .metadataDamaged => 4
  | .commandDone => 0
  | .commandOverrun => 1
  | .patrolPass => 2
  | .phaseChange => 3
  | .lockExpired => 4
  | .incidentOverflow => 5

/-- The positions a group assigns; other bits read 0 and are ignored when written (R171, R177). -/
def groupPositions : Group → Word
  | .access => 0x3F#32
  | .media => 0x7F#32
  | .array => 0x1F#32
  | .service => 0x3F#32

/-- The registers of a group. -/
def Events.group (e : Events) : Group → EventGroup
  | .access => e.access
  | .media => e.media
  | .array => e.array
  | .service => e.service

/-- Replace the registers of one group. -/
def Events.setGroup (e : Events) (g : Group) (x : EventGroup) : Events :=
  match g with
  | .access => { e with access := x }
  | .media => { e with media := x }
  | .array => { e with array := x }
  | .service => { e with service := x }

/-- Is this flag set? -/
def Events.isSet (e : Events) (f : Flag) : Bool := (e.group f.group).flags.getLsbD f.position

/-- Is this flag's enable set? -/
def Events.isEnabled (e : Events) (f : Flag) : Bool := (e.group f.group).enables.getLsbD f.position

/-- A cause posted to a position of a group: the flag is set if its enable is set, and left otherwise (R180). -/
def EventGroup.post (x : EventGroup) (position : Nat) : EventGroup :=
  if x.enables.getLsbD position then { x with flags := x.flags ||| (1#32 <<< position) } else x

/-- Post a cause to the flag it names (R180). -/
def Events.post (e : Events) (f : Flag) : Events := e.setGroup f.group ((e.group f.group).post f.position)

/-- Post a cause (R180). -/
def post (f : Flag) (s : State) : State := { s with events := s.events.post f }

/-- Write an incident record: it joins the queue, or is dropped with INCIDENT_OVERFLOW at a full queue (R183). -/
def writeIncident (i : Incident) (s : State) : State :=
  if s.events.incidents.length < Config.incidentDepth then
    { s with events := { s.events with incidents := s.events.incidents ++ [i] } }
  else post .incidentOverflow s

/-- Write of a value to a group's flags register: each flag whose position carries a 1 is cleared (R181). -/
def EventGroup.writeFlags (x : EventGroup) (v : Word) : EventGroup := { x with flags := x.flags &&& ~~~v }

/-- Write of a value to a group's enables register: the assigned positions take the value, and a flag whose enable
ends clear is cleared (R181). -/
def EventGroup.writeEnables (x : EventGroup) (g : Group) (v : Word) : EventGroup :=
  { flags := x.flags &&& (v &&& groupPositions g), enables := v &&& groupPositions g }

/-- The pending bit of a group (R182). -/
def Events.groupPending (e : Events) (g : Group) : Bool := (e.group g).flags != 0#32

/-- The bit of a group in GROUP_PENDING and GROUP_ENABLE (R171). -/
def groupBit : Group → Nat
  | .access => 0
  | .media => 1
  | .array => 2
  | .service => 3

/-- The bits GROUP_ENABLE holds: four group enables and the master enable (R171). -/
abbrev groupEnableBits : Word := 0x8000000F#32

/-- Some group whose group enable is set has a flag set (R182). -/
def Events.enabledPending (e : Events) : Bool :=
  [Group.access, .media, .array, .service].any fun g => e.groupEnable.getLsbD (groupBit g) && e.groupPending g

/-- ALERT (R182); it is deasserted throughout power-on reset. -/
def alert (s : State) : Bool := !s.pins.porst && s.events.groupEnable.getLsbD 31 && s.events.enabledPending

/-- The GROUP_PENDING register (R171, R182). -/
def Events.pendingRegister (e : Events) : Word :=
  (BitVec.ofBool (e.groupPending .access)).setWidth 32
    ||| ((BitVec.ofBool (e.groupPending .media)).setWidth 32 <<< 1)
    ||| ((BitVec.ofBool (e.groupPending .array)).setWidth 32 <<< 2)
    ||| ((BitVec.ofBool (e.groupPending .service)).setWidth 32 <<< 3)

/-- Pop: the oldest record moves to INC0 to INC3; an empty queue shows NONE there (R178, R184). -/
def Events.pop (e : Events) : Events :=
  match e.incidents with
  | [] => { e with popped := none }
  | i :: rest => { e with incidents := rest, popped := some i }

end Sys2Proof.Machine
end

