-- ==== Sys2Proof/Machine/Operands.lean ====
section
/-!
DEFINITION. Operand forms: the byte span of a transaction, bytes laid over a line, fields of the parameter registers,
the sparse tables, and the codes of chapter 10.
-/

namespace Sys2Proof.Machine

/-! ### Spans and bytes of a line -/

/-- The user line of a system address (R1). -/
def userLine (addr : Nat) : Nat := addr / 64

/-- The offset of a system address in its line (R1). -/
def lineOffset (addr : Nat) : Nat := addr % 64

/-- The user line of a transaction (R1). -/
def txLine (t : Transaction) : Nat := userLine t.addr.toNat

/-- The offset of a transaction (R1). -/
def txOffset (t : Transaction) : Nat := lineOffset t.addr.toNat

/-- A well-formed transaction: size 1 to 64 and offset + size at most 64 (R1, R10). -/
def txFormed (t : Transaction) : Bool :=
  decide (1 ≤ t.size ∧ t.size ≤ 64 ∧ txOffset t + t.size ≤ 64)

/-- The offsets from `offset` to `offset + size - 1` (R1). -/
def spanMask (offset size : Nat) : Mask :=
  (BitVec.allOnes 64 <<< offset) &&& ~~~(BitVec.allOnes 64 <<< (offset + size))

/-- A line built from its bytes by offset. -/
def lineOf (f : Nat → Byte) : LineData := (List.range 64).map f

/-- Byte i of a line. -/
def byteAt (d : LineData) (i : Nat) : Byte := d.getD i 0#8

/-- Byte i of a write's data lies at offset + i (R1); other bytes of the result are 0 and carry no meaning
(log entry 19). -/
def placeBytes (offset : Nat) (data : List Byte) : LineData :=
  lineOf fun i => if offset ≤ i then data.getD (i - offset) 0#8 else 0#8

/-- The bytes of `new` at the offsets `mask` covers, laid over `old` (R56, R61). -/
def overlay (mask : Mask) (new old : LineData) : LineData :=
  lineOf fun i => if mask.getLsbD i then byteAt new i else byteAt old i

/-- A line of zeros. -/
def zeroLine : LineData := lineOf fun _ => 0#8

/-- The bytes of a span of a line, in order (R1). -/
def slice (d : LineData) (offset size : Nat) : List Byte := (List.range size).map fun i => byteAt d (offset + i)

/-! ### Responses -/

/-- The response of a transaction answered with a code other than OK, or of an OK write: a READ's data bytes are all
zero, a WRITE carries none (R1, log entry 12). -/
def plainResponse (kind : Access) (size : Nat) (code : ResponseCode) : Response :=
  match kind with
  | .read => { code := code, data := List.replicate size 0#8 }
  | .write => { code := code, data := [] }

/-! ### Sparse tables: lists of keys and values, keys strictly rising -/

/-- The value of a key. -/
def sparseGet {α : Type} (l : List (Nat × α)) (k : Nat) : Option α :=
  match l with
  | [] => none
  | (a, x) :: rest => if a = k then some x else sparseGet rest k

/-- Give a key a value, in its place. -/
def sparseSet {α : Type} (l : List (Nat × α)) (k : Nat) (v : α) : List (Nat × α) :=
  match l with
  | [] => [(k, v)]
  | (a, x) :: rest =>
    if k < a then (k, v) :: (a, x) :: rest
    else if a = k then (k, v) :: rest
    else (a, x) :: sparseSet rest k v

/-- Take a key out. -/
def sparseDel {α : Type} (l : List (Nat × α)) (k : Nat) : List (Nat × α) := l.filter fun p => p.1 != k

/-- The canonical form: keys strictly rising. -/
def sparseWf {α : Type} (l : List (Nat × α)) : Bool := decide ((l.map Prod.fst).Pairwise (· < ·))

/-- Put a number into a rising list of numbers, once. -/
def insertNat (l : List Nat) (k : Nat) : List Nat :=
  match l with
  | [] => [k]
  | a :: rest => if k < a then k :: a :: rest else if a = k then a :: rest else a :: insertNat rest k

/-! ### Fields of the parameter registers (R175) -/

/-- The value of bits `lo` to `lo + len - 1` of a register. -/
def field (w : Word) (lo len : Nat) : Nat := (w.extractLsb' lo len).toNat

/-- PARAMn as a command reads it: from the copy made at its taking (R173, R175). -/
def param (s : State) (n : Nat) : Word := s.mgmt.copy.getD n 0#32

/-- PARAMn read as a 32-bit number (R175). -/
def paramNat (s : State) (n : Nat) : Nat := (param s n).toNat

/-- Write mode code (R175). -/
def writeModeOf (n : Nat) : Option WriteMode :=
  match n with
  | 0 => some .posted
  | 1 => some .through
  | _ => none

/-- Patrol field code (R175). -/
def patrolFieldOf (n : Nat) : Option PatrolField :=
  match n with
  | 0 => some .included
  | 1 => some .excluded
  | _ => none

/-- Threshold code: 1 to 8, or 255 for OFF (R46, R175). -/
def thresholdOf (n : Nat) : Option Threshold :=
  if n = 255 then some .off else if 1 ≤ n ∧ n ≤ 8 then some (.bits n) else none

/-- Kinds code (R175). -/
def kindsOf (n : Nat) : Option WatchKinds :=
  match n with
  | 1 => some .read
  | 2 => some .write
  | 3 => some .both
  | _ => none

/-- Ports code (R175). -/
def portsOf (n : Nat) : Option WatchPorts :=
  match n with
  | 1 => some .a
  | 2 => some .b
  | 3 => some .both
  | _ => none

/-- Action code (R175). -/
def actionOf (n : Nat) : Option WatchAction :=
  match n with
  | 0 => some .note
  | 1 => some .refuse
  | _ => none

/-- Target kind code (R175). -/
def accessOf (n : Nat) : Option Access :=
  match n with
  | 0 => some .read
  | 1 => some .write
  | _ => none

/-- Patrol mode code (R175). -/
def patrolModeOf (n : Nat) : Option PatrolMode :=
  match n with
  | 1 => some .singlePass
  | 2 => some .continuous
  | _ => none

/-! ### Codes returned to software (R172, R173, R178) -/

def Phase.code : Phase → Nat
  | .geometryFault => 0
  | .loading => 1
  | .unformatted => 2
  | .formatting => 3
  | .readReady => 4
  | .repairing => 5
  | .fullReady => 6

def ServiceState.code : ServiceState → Nat
  | .closed => 0
  | .resetDrain => 1
  | .start => 2
  | .inService => 3

def LinkState.code : LinkState → Nat
  | .idle => 0
  | .requesting => 1
  | .granted => 2
  | .operating => 3
  | .unavailable => 4

def LockState.code : LockState → Nat
  | .unlocked => 0
  | .locked => 1
  | .expired => 2
  | .frozen => 3

def dataStateCode : DataState → Nat
  | .intact => 0
  | .poisoned => 1
  | .partialOf _ => 2

/-- The valid mask as it is reported: all clear unless PARTIAL (R120). -/
def validMaskOf : DataState → Mask
  | .intact => Mask.empty
  | .poisoned => Mask.empty
  | .partialOf m => m

def originCode : Origin → Nat
  | .programFail => 0
  | .relocated => 1
  | .candidateFail => 2
  | .candidateOverflow => 3
  | .mergeFail => 4
  | .retireCommand => 5

def poolStateCode : PoolState → Nat
  | .free => 0
  | .inUse => 1
  | .dead => 2

def Source.code : Source → Nat
  | .read => 0
  | .patrol => 1
  | .relocation => 2

def PatrolMode.code : PatrolMode → Nat
  | .stopped => 0
  | .singlePass => 1
  | .continuous => 2

/-- Cause of a DATA_LOSS (R64, R172). -/
inductive LossCause where
  | noSpare
  | metadata
deriving DecidableEq, Repr

def LossCause.code : LossCause → Nat
  | .noSpare => 0
  | .metadata => 1

def ResultCode.code : ResultCode → BitVec 8
  | .done => 0x01#8
  | .refusedLocked => 0x02#8
  | .refusedExpired => 0x03#8
  | .refusedFrozen => 0x04#8
  | .badParameter => 0x05#8
  | .queueFull => 0x06#8
  | .notFound => 0x07#8
  | .cancelled => 0x08#8
  | .metadataFault => 0x09#8
  | .notReady => 0x0A#8
  | .unknownCommand => 0x0B#8

def IncidentKind.code : IncidentKind → Nat
  | .watchHit => 1
  | .sequenceComplete => 2
  | .sequenceBreak => 3
  | .dataLoss => 4
  | .remapped => 5
  | .candidateAdded => 6
  | .candidateLost => 7
  | .metadataDamaged => 8

def portCode : Port → Nat
  | .a => 1
  | .b => 2

/-- A number in a register field. -/
def word (n : Nat) : Word := BitVec.ofNat 32 n

/-- A flag in a register field. -/
def flagBit (b : Bool) : Word := if b then 1#32 else 0#32

end Sys2Proof.Machine
end

