-- ==== Sys2Proof/Machine/Ops.lean ====
section
/-!
DEFINITION. The named operations over the state that every block shares: the port queues and answers, the service and
link states, regions and classes, mapped lines and the spare pool, buffer capacities, the command engine's completion,
pending array work, and the claim table.
-/

namespace Sys2Proof.Machine

/-! ### Ports (R2 to R5) -/

/-- The queue of a port (R2). -/
def queueOf (s : State) (p : Port) : List Taken :=
  match p with
  | .a => s.path.queueA
  | .b => s.path.queueB

/-- Replace the queue of a port. -/
def setQueue (p : Port) (q : List Taken) (s : State) : State :=
  match p with
  | .a => { s with path := { s.path with queueA := q } }
  | .b => { s with path := { s.path with queueB := q } }

/-- Move one transaction of a port queue to another stand. -/
def setStand (p : Port) (serial : Nat) (st : Stand) (s : State) : State :=
  setQueue p ((queueOf s p).map fun t => if t.serial = serial then { t with stand := st } else t) s

/-- Decide the answer of a transaction; it is held in the queue (R3). -/
def answer (p : Port) (serial : Nat) (r : Response) (s : State) : State := setStand p serial (.decided r) s

/-- The port service state: the first of the four that applies (R5). -/
def serviceState (s : State) : ServiceState :=
  if s.pins.srst then .closed
  else if s.path.drainWait then .resetDrain
  else match s.metaCtl.phase with
    | .geometryFault | .loading | .unformatted | .formatting => .start
    | .readReady | .repairing | .fullReady => .inService

/-- READY (R5). -/
def ready (s : State) : Bool := serviceState s == .inService

/-! ### Regions and classes (R39 to R44) -/

/-- What a region lookup yields (R39). -/
structure Lookup where
  cls : Nat
  aRead : Bool
  aWrite : Bool
  bRead : Bool
  bWrite : Bool
deriving DecidableEq, Repr

/-- The result for a line in no enabled region (R39). -/
def Lookup.default : Lookup := { cls := 0, aRead := true, aWrite := true, bRead := true, bWrite := true }

/-- A region entry covers a line while it is enabled (R38). -/
def regionCovers (r : RegionEntry) (line : Nat) : Bool :=
  r.enabled && decide (r.first ≤ line) && decide (line ≤ r.last)

/-- The region lookup: the enabled entry of lowest index that contains the line, or the default (R39). -/
def regionLookup (s : State) (line : Nat) : Lookup :=
  match s.tables.regions.find? (fun r => regionCovers r line) with
  | some r => { cls := r.cls, aRead := r.aRead, aWrite := r.aWrite, bRead := r.bRead, bWrite := r.bWrite }
  | none => Lookup.default

/-- The access flag for a port and kind (R40). -/
def Lookup.allows (l : Lookup) (p : Port) (k : Access) : Bool :=
  match p, k with
  | .a, .read => l.aRead
  | .a, .write => l.aWrite
  | .b, .read => l.bRead
  | .b, .write => l.bWrite

/-- The working entry of a class (R41). -/
def classEntry (s : State) (cls : Nat) : ClassEntry := s.tables.classes.getD cls classDefault

/-- The class entry of a line's present region (R41, R43, R44). -/
def lineClass (s : State) (line : Nat) : ClassEntry := classEntry s (regionLookup s line).cls

/-- A CORRECTED count reaches a relocation threshold (R44). -/
def thresholdReached (t : Threshold) (bits : Nat) : Bool :=
  match t with
  | .off => false
  | .bits k => decide (k ≤ bits)

/-! ### Remap table and spare pool (R100 to R104) -/

/-- The remap entry of a user line (R100). -/
def remapEntry (s : State) (line : Nat) : Option RemapEntry := sparseGet s.remap.table line

/-- The array line of a spare slot (00_scope). -/
def spareLine (s : State) (slot : Nat) : Nat := s.fence.uNative + slot

/-- The mapped line of a user line (R101). -/
def mappedLine (s : State) (line : Nat) : Nat :=
  match remapEntry s line with
  | some e => spareLine s e.slot
  | none => line

/-- The data state of a line; a line with no entry is treated as INTACT (R102). -/
def dataState (s : State) (line : Nat) : DataState :=
  match remapEntry s line with
  | some e => e.data
  | none => .intact

/-- The table's user line and entry that hold a slot (R100). -/
def entryOfSlot (s : State) (slot : Nat) : Option (Nat × RemapEntry) :=
  s.remap.table.find? fun p => p.2.slot == slot

/-- The pool state of a slot: IN_USE exactly for the slots of the table's entries (R103). -/
def poolState (s : State) (slot : Nat) : PoolState :=
  if s.remap.dead.contains slot then .dead
  else if (entryOfSlot s slot).isSome then .inUse
  else .free

/-- The free count (R103). -/
def freeCount (s : State) : Nat := Config.spareSlots - s.remap.dead.length - s.remap.table.length

/-- The lowest FREE slot at or above `n`, looking at `fuel` slots. -/
def lowestFreeFrom (s : State) (n : Nat) : Nat → Option Nat
  | 0 => none
  | fuel + 1 => if poolState s n = .free then some n else lowestFreeFrom s (n + 1) fuel

/-- The lowest FREE slot (R103, R108). -/
def lowestFree (s : State) : Option Nat := lowestFreeFrom s 0 Config.spareSlots

/-- Posting is suspended: the image is loaded and 64 or fewer slots are FREE (R71). -/
def postingSuspended (s : State) : Bool := s.remap.loaded && decide (freeCount s ≤ Config.lowSpares)

/-- The internal record of a slot (R105). -/
def slotRecord (s : State) (slot : Nat) : SlotRecord := (sparseGet s.remap.records slot).getD .free

/-- Place new contents into a slot's record (R105). -/
def setRecord (slot : Nat) (r : SlotRecord) (s : State) : State :=
  let records := match r with
    | .free => sparseDel s.remap.records slot
    | r => sparseSet s.remap.records slot r
  { s with remap := { s.remap with records := records } }

/-- The thresholds of R104, at an event that took the free count from `before` to its present value. -/
def postThresholds (before : Nat) (s : State) : State :=
  let s := if before = 65 ∧ freeCount s = 64 then post .sparesLow s else s
  if before = 1 ∧ freeCount s = 0 then post .sparesExhausted s else s

/-- A FREE slot goes DEAD in the pool and in its record (R103, R109, R113). -/
def killSlot (slot : Nat) (s : State) : State :=
  postThresholds (freeCount s)
    (setRecord slot .dead { s with remap := { s.remap with dead := insertNat s.remap.dead slot } })

/-! ### The Posting Buffer's capacities (R52) -/

/-- The new reserve of an open reserve wait (R76). -/
def reserveWait (s : State) : Option Nat :=
  match s.mgmt.busy with
  | some (.reserve n) => some n
  | _ => none

/-- System capacity; the smaller of its two values while a reserve wait is open (R52). -/
def systemCapacity (s : State) : Nat :=
  match reserveWait s with
  | some n => min (Config.bufferEntries - s.buffer.reserve) (Config.bufferEntries - n)
  | none => Config.bufferEntries - s.buffer.reserve

/-- Staging capacity, in the same way (R52). -/
def stagingCapacity (s : State) : Nat :=
  match reserveWait s with
  | some n => min s.buffer.reserve n
  | none => s.buffer.reserve

/-- System entries in use. -/
def systemInUse (s : State) : Nat := s.buffer.entries.length

/-- Staging entries in use: one per relocation job in flight (R75). -/
def stagingInUse (s : State) : Nat := s.health.jobs.length

/-- Some entry of the 32 is free (R52). -/
def entryFree (s : State) : Bool := decide (systemInUse s + stagingInUse s < Config.bufferEntries)

/-- A free system entry exists (R52). -/
def systemEntryFree (s : State) : Bool := decide (systemInUse s < systemCapacity s) && entryFree s

/-- A free staging entry exists (R52). -/
def stagingEntryFree (s : State) : Bool := decide (stagingInUse s < stagingCapacity s) && entryFree s

/-- The entry that is DRAINING, of the drain in progress. -/
def drainingEntry (s : State) : Option SystemEntry := s.buffer.entries.find? fun e => e.state == .draining

/-- The first operation of a drain is urgent (R68). -/
def drainUrgent (s : State) : Bool :=
  decide (systemCapacity s - systemInUse s ≤ Config.urgentFree) || s.pins.pwarn
    || (match drainingEntry s with
        | some e => e.target
        | none => false)

/-! ### The command engine (R173) -/

/-- A command completes: its result and its data are placed, busy is cleared, COMMAND_DONE is posted (R173). -/
def completeWith (r : ResultCode) (data : List Word) (s : State) : State :=
  post .commandDone
    { s with
      mgmt :=
        { s.mgmt with
          result := r.code
          rdata := data ++ List.replicate (8 - data.length) 0#32
          busy := none } }

/-- A completion with no data (R173, R176). -/
def complete (r : ResultCode) (s : State) : State := completeWith r [] s

/-- Take a command code: ignored under power-on reset (R169), an overrun while busy, and otherwise taken, with the
parameters copied (R173). -/
def takeCommand (code : BitVec 8) (carry : State → State) (s : State) : State :=
  if s.pins.porst then s
  else if s.mgmt.busy.isSome then post .commandOverrun s
  else carry { s with mgmt := { s.mgmt with command := code, copy := s.mgmt.params } }

/-! ### Start-up phase (R158) -/

/-- A change of the start-up phase (R158). -/
def setPhase (p : Phase) (s : State) : State :=
  post .phaseChange { s with metaCtl := { s.metaCtl with phase := p } }

/-- The four phases before the ports are in service. -/
def Phase.starting : Phase → Bool
  | .geometryFault | .loading | .unformatted | .formatting => true
  | .readReady | .repairing | .fullReady => false

/-! ### Pending array work (R82, R96, R98) -/

/-- Place an operation behind the pending ones. -/
def placeOp (op : ArrayOp) (s : State) : State := { s with link := { s.link with work := s.link.work ++ [op] } }

/-- The taking stamp of a pending system read that has not been abandoned. -/
def ArrayOp.readSerial (op : ArrayOp) : Option Nat :=
  match op.purpose, op.issued with
  | .systemRead n, false => some n
  | _, _ => none

/-- Put a system read before the younger pending ones (R98). -/
def insertRead (op : ArrayOp) (serial : Nat) : List ArrayOp → List ArrayOp
  | [] => [op]
  | o :: rest =>
    match o.readSerial with
    | some n => if serial < n then op :: o :: rest else o :: insertRead op serial rest
    | none => o :: insertRead op serial rest

/-- Place the ARRAY_READ of a system read (R17, R98). -/
def placeRead (serial arrayLine : Nat) (s : State) : State :=
  let op : ArrayOp :=
    { purpose := .systemRead serial, arrayLine := arrayLine, action := .read, first := false, issued := false }
  { s with link := { s.link with work := insertRead op serial s.link.work } }

/-- Take pending operations out. -/
def removeWork (gone : ArrayOp → Bool) (s : State) : State :=
  { s with link := { s.link with work := s.link.work.filter fun o => !gone o } }

/-- The writer whose course an operation belongs to. -/
def Purpose.writer : Purpose → Option Writer
  | .mergeRead w | .mappedProgram w | .storageProgram w | .verifyRead w => some w
  | _ => none

/-- The array line of a metadata line (00_scope). -/
def metaArrayLine (s : State) (t : MetaLine) : Nat :=
  match t with
  | .image k => s.fence.uNative + 4096 + k
  | .settings j => s.fence.uNative + 5120 + j

/-- A pending operation is an ARRAY_PROGRAM. -/
def ArrayOp.isProgram (o : ArrayOp) : Bool :=
  match o.action with
  | .read => false
  | .program _ => true
  | .compose => true

/-- This pending program of the metadata line can be joined: it has never been issued (R157). -/
def ArrayOp.joins (o : ArrayOp) (t : MetaLine) : Bool :=
  match o.purpose with
  | .metaProgram u _ => decide (u = t) && !o.issued
  | _ => false

/-- Join a request to a pending metadata program. -/
def ArrayOp.addAsker (o : ArrayOp) (a : MetaAsker) : ArrayOp :=
  match o.purpose with
  | .metaProgram u askers => { o with purpose := .metaProgram u (askers ++ [a]) }
  | _ => o

/-- Join a request to the first pending program it can join. -/
def joinFirst (t : MetaLine) (a : MetaAsker) : List ArrayOp → List ArrayOp
  | [] => []
  | o :: rest => if o.joins t then o.addAsker a :: rest else o :: joinFirst t a rest

/-- Request a program of a metadata line: it joins a pending program of that line that has never been issued, or is
placed behind the pending work (R157). -/
def requestMeta (t : MetaLine) (a : MetaAsker) (s : State) : State :=
  if s.link.work.any (·.joins t) then { s with link := { s.link with work := joinFirst t a s.link.work } }
  else
    placeOp
      { purpose := .metaProgram t [a], arrayLine := metaArrayLine s t, action := .compose, first := false
        issued := false } s

/-- The link state: the first that applies (R84). -/
def linkState (s : State) : LinkState :=
  if s.link.inFlight.isSome then .operating
  else if s.link.unavailable then .unavailable
  else if s.link.work.isEmpty then .idle
  else if s.pins.agnt then .granted
  else .requesting

/-- AREQ (R83); deasserted throughout power-on reset. -/
def areq (s : State) : Bool :=
  !s.pins.porst && (!s.link.work.isEmpty || s.link.inFlight.isSome || s.link.unavailable)

/-- The grant wait condition (R87). -/
def grantWait (s : State) : Bool :=
  !s.link.work.isEmpty && !s.pins.agnt && !s.link.unavailable && !s.metaCtl.phase.starting

/-- The grant wait timer stops when its condition ends (R87). The condition is judged as the step leaves it: where a
released claim would place the only pending operation again, it ends here and begins anew at CLAIM_GRANT
(log entry 31). -/
def stopGrantTimer (s : State) : State :=
  if grantWait s then s else { s with link := { s.link with waitTicks := 0 } }

/-- The operation in flight, when its purpose is of the wanted sort. -/
def inFlightFor {α : Type} (s : State) (want : Purpose → Option α) : Option α :=
  match s.link.inFlight with
  | some o => want o.purpose
  | none => none

/-- At its completion the port is free again (R82). -/
def freePort (s : State) : State := { s with link := { s.link with inFlight := none } }

/-! ### The claim table (R92 to R94) -/

/-- The claim record of a line; a line with neither holder nor request has none (R92). -/
def claimRecord (s : State) (line : Nat) : ClaimRecord :=
  (sparseGet s.link.claims line).getD { holders := .shared [], waiting := [] }

/-- Nobody holds the line. -/
def Holders.isNone : Holders → Bool
  | .shared [] => true
  | _ => false

/-- A request of this kind can be granted beside these holders (R93). -/
def Holders.admits (h : Holders) (k : ClaimKind) : Bool :=
  match k, h with
  | .shared, .shared _ => true
  | .shared, .exclusive _ => false
  | .exclusive, .shared [] => true
  | .exclusive, .shared (_ :: _) => false
  | .exclusive, .exclusive _ => false

/-- Add a granted claimant. -/
def Holders.add (h : Holders) (k : ClaimKind) (o : Claimant) : Holders :=
  match k, h with
  | .shared, .shared os => .shared (os ++ [o])
  | .shared, .exclusive x => .exclusive x
  | .exclusive, _ => .exclusive o

/-- Take a claimant out. -/
def Holders.drop (h : Holders) (o : Claimant) : Holders :=
  match h with
  | .shared os => .shared (os.filter (· != o))
  | .exclusive x => if x = o then .shared [] else .exclusive x

/-- Store a line's record, or remove it when it is empty (R92). -/
def setClaims (line : Nat) (r : ClaimRecord) (s : State) : State :=
  let claims := if r.holders.isNone && r.waiting.isEmpty then sparseDel s.link.claims line
    else sparseSet s.link.claims line r
  { s with link := { s.link with claims := claims } }

/-- A request is granted at the moment it is made (R93). -/
def grantedAtOnce (s : State) (line : Nat) (k : ClaimKind) : Bool :=
  (claimRecord s line).holders.admits k && (claimRecord s line).waiting.isEmpty

/-- Make a claim request: it is granted at once or joins the end of the waiting requests (R93). -/
def requestClaim (line : Nat) (k : ClaimKind) (o : Claimant) (s : State) : State :=
  let r := claimRecord s line
  if grantedAtOnce s line k then setClaims line { r with holders := r.holders.add k o } s
  else setClaims line { r with waiting := r.waiting ++ [{ kind := k, owner := o }] } s

/-- A claim is released, or a waiting request withdrawn (R94). The requests behind it are settled by CLAIM_GRANT
(log entry 8). -/
def dropClaim (line : Nat) (o : Claimant) (s : State) : State :=
  let r := claimRecord s line
  setClaims line { holders := r.holders.drop o, waiting := r.waiting.filter fun q => decide (q.owner ≠ o) } s

/-- No claim is held on a line and none waits for it: what R59 asks of an eligible entry's line (log entry 8). -/
def lineUnclaimed (s : State) (line : Nat) : Bool :=
  (claimRecord s line).holders.isNone && (claimRecord s line).waiting.isEmpty

/-! ### Eligible entries, and the change from READ_READY to REPAIRING (R59, R166, R167) -/

/-- A PENDING entry of the line, if it has one (R54). -/
def pendingEntry (s : State) (line : Nat) : Option SystemEntry :=
  s.buffer.entries.find? fun e => e.line == line && e.state == .pending

/-- The DRAINING entry of the line, if it has one (R54). -/
def lineDraining (s : State) (line : Nat) : Option SystemEntry :=
  s.buffer.entries.find? fun e => e.line == line && e.state == .draining

/-- An entry is eligible to drain (R59). -/
def eligible (s : State) (e : SystemEntry) : Bool :=
  e.state == .pending && (lineDraining s e.line).isNone && lineUnclaimed s e.line

/-- Some operation pending or in flight is a repair program (R167). -/
def repairOutstanding (s : State) : Bool :=
  let asks (o : ArrayOp) : Bool := match o.purpose with
    | .metaProgram _ askers => askers.contains .repair
    | _ => false
  s.link.work.any asks || s.link.inFlight.any asks

/-- In REPAIRING: with an empty list the phase becomes FULL_READY, and otherwise the program of the line at the head
is placed unless a repair program is outstanding (R167). -/
def advanceRepair (s : State) : State :=
  if s.metaCtl.phase = .repairing then
    match s.metaCtl.repair with
    | [] => setPhase .fullReady s
    | t :: _ => if repairOutstanding s then s else requestMeta t .repair s
  else s

/-- Entry to REPAIRING: the settle timer stops and the repair of the list begins (R166, R167). -/
def enterRepairing (s : State) : State :=
  let s := setPhase .repairing s
  advanceRepair { s with metaCtl := { s.metaCtl with settleTicks := none } }

/-- The triggers of R166 that are conditions of the state: an eligible entry, or a pending program. -/
def repairTrigger (s : State) : Bool :=
  s.buffer.entries.any (eligible s) || s.link.work.any (·.isProgram)

/-- What follows at every event that can end READ_READY (R166). -/
def follow (s : State) : State :=
  if s.metaCtl.phase = .readReady ∧ repairTrigger s then enterRepairing s else s

/-- What follows an event that may place a program, make an entry eligible or end the grant wait (R87, R166). The grant
wait is judged last: where the event removed the only pending operation and the end of READ_READY places a repair
program, the timer runs on (log entry 31). -/
def settle (s : State) : State := stopGrantTimer (follow s)

/-! ### The outcome of a command -/

/-- Every command ends in a next state; while PORST is asserted the part holds its power-on values, and a command that
is not a pin's leaves them (R8, R169, log entry 23). -/
def onPart (f : State → State) (s : State) : Host.Outcome State Fault Refusal :=
  .next (if s.pins.porst then s else f s)

end Sys2Proof.Machine
end

