-- ==== Sys2Proof/Machine/Health.lean ====
section
/-!
DEFINITION. Operations of the Media Health Unit and of the no-data queue: offers to the candidate list, relocation
needs, reassigns with no data, and the end of a relocation job (R107, R123 to R130, R134).
-/

namespace Sys2Proof.Machine

/-- The line is on the candidate list (R123). -/
def isCandidate (s : State) (line : Nat) : Bool := s.health.candidates.any fun c => c.line == line

/-- Take a line off the candidate list, if it is on it; the entries behind it move up (R123). -/
def removeCandidate (line : Nat) (s : State) : State :=
  { s with health := { s.health with candidates := s.health.candidates.filter fun c => c.line != line } }

/-- A relocation job for the line waits in the relocation queue (R129). -/
def jobQueued (s : State) (line : Nat) : Bool := s.health.queue.any fun j => j.line == line

/-- A relocation job for the line is in flight (R131). -/
def jobInFlight (s : State) (line : Nat) : Bool := s.health.jobs.any fun j => j.line == line

/-- Take the line's job out of the relocation queue (R130). -/
def removeQueuedJob (line : Nat) (s : State) : State :=
  { s with health := { s.health with queue := s.health.queue.filter fun j => j.line != line } }

/-- A reassign with no data in the work list for the line. -/
def Request.isNoDataOf (r : Request) (line : Nat) : Bool :=
  match r with
  | .noData l _ => l == line
  | _ => false

/-- The line is in the no-data queue, or being served as a reassign with no data (R107). -/
def noDataPresent (s : State) (line : Nat) : Bool :=
  s.remap.noData.any (fun q => q.line == line) || s.remap.workList.any (·.isNoDataOf line)

/-- A reassign with no data failed: CANDIDATE_LOST and its incident, once (R125, log entry 13). -/
def candidateLost (line : Nat) (s : State) : State :=
  writeIncident { kind := .candidateLost, line := some line, port := none, detail := none, index := none }
    (post .candidateLost s)

/-- Ask for a reassign with no data: joined to one present for the line, failed at once at a queue full of other
lines, or queued (R107, R125). -/
def requestNoData (line : Nat) (origin : Origin) (s : State) : State :=
  if noDataPresent s line then s
  else if Config.noDataDepth ≤ s.remap.noData.length then candidateLost line s
  else { s with remap := { s.remap with noData := s.remap.noData ++ [{ line := line, origin := origin }] } }

/-- Offer a line to the candidate list (R124, R125). The offer of a line whose relocation job is in flight is dropped, so
that no candidate is in a job in flight (R123, log entry 29). -/
def offer (line : Nat) (source : Source) (s : State) : State :=
  if isCandidate s line then s
  else if noDataPresent s line then s
  else if jobInFlight s line then s
  else if Config.candidateDepth ≤ s.health.candidates.length then
    requestNoData line .candidateOverflow (removeQueuedJob line s)
  else
    let s := removeQueuedJob line s
    let s := { s with
      health := { s.health with candidates := s.health.candidates ++ [{ line := line, source := source }] } }
    writeIncident
      { kind := .candidateAdded, line := some line, port := none, detail := some (BitVec.ofNat 8 source.code)
        index := none }
      (post .candidateAdded s)

/-- Give a relocation need to the queue (R129). -/
def need (line : Nat) (reason : Reason) (s : State) : State :=
  if jobQueued s line || jobInFlight s line then s
  else if isCandidate s line then s
  else if Config.relocationDepth ≤ s.health.queue.length then post .relocationDropped s
  else { s with health := { s.health with queue := s.health.queue ++ [{ line := line, reason := reason }] } }

/-- A relocation job ends: its claim is released and its staging entry freed (R134). -/
def endJob (line : Nat) (s : State) : State :=
  dropClaim line (.job line)
    { s with health := { s.health with jobs := s.health.jobs.filter fun j => j.line != line } }

end Sys2Proof.Machine
end

