-- ==== Sys2Proof/Machine/Courses.lean ====
section
/-!
DEFINITION. Operations of the Posting Buffer and of the two writers that program user lines: the drain in progress and
the through-writes. Snapshots, merging and posting, the begin and the end of a course (R52 to R66, R72 to R74).
-/

namespace Sys2Proof.Machine

/-! ### Posting and forwarding (R55 to R58) -/

/-- Merge a write into the line's PENDING entry (R56). -/
def mergeEntry (line : Nat) (mask : Mask) (data : LineData) (s : State) : State :=
  let merge (e : SystemEntry) : SystemEntry :=
    if e.line = line ∧ e.state = .pending then
      { e with mask := e.mask ||| mask, data := overlay mask data e.data }
    else e
  { s with buffer := { s.buffer with entries := s.buffer.entries.map merge } }

/-- Create a PENDING entry at the young end of the age list (R55). -/
def createEntry (p : Port) (line : Nat) (mask : Mask) (data : LineData) (s : State) : State :=
  let e : SystemEntry :=
    { line := line, mask := mask, data := overlay mask data zeroLine, state := .pending, firstWriter := p
      target := false }
  { s with buffer := { s.buffer with entries := s.buffer.entries ++ [e] } }

/-- Take a posted write at the buffer: merged, or placed in a new entry, or none when it must wait (R55). -/
def placePosted (p : Port) (line : Nat) (mask : Mask) (data : LineData) (s : State) : Option State :=
  if (pendingEntry s line).isSome then some (mergeEntry line mask data s)
  else if systemEntryFree s then some (createEntry p line mask data s)
  else none

/-- The bytes of a line the buffer can forward: the PENDING entry's first, then the DRAINING entry's (R58). -/
def forwardMask (s : State) (line : Nat) : Mask :=
  ((pendingEntry s line).map (·.mask)).getD Mask.empty ||| ((lineDraining s line).map (·.mask)).getD Mask.empty

/-- The values of those bytes (R58). -/
def forwardData (s : State) (line : Nat) : LineData :=
  let older := match lineDraining s line with
    | some e => overlay e.mask e.data zeroLine
    | none => zeroLine
  match pendingEntry s line with
  | some e => overlay e.mask e.data older
  | none => older

/-! ### Courses of drains and through-writes (R60, R73) -/

/-- The through-write with a stamp. -/
def throughOf (s : State) (serial : Nat) : Option ThroughWrite := s.path.throughs.find? fun t => t.serial == serial

/-- Change one through-write. -/
def setThrough (serial : Nat) (f : ThroughWrite → ThroughWrite) (s : State) : State :=
  { s with path := { s.path with throughs := s.path.throughs.map fun t => if t.serial = serial then f t else t } }

/-- The course of a writer. -/
def courseOf (s : State) (w : Writer) : Option Course :=
  match w with
  | .drain => s.buffer.drain
  | .through n => (throughOf s n).map (·.course)

/-- Store the course of a writer. -/
def setCourse (w : Writer) (c : Course) (s : State) : State :=
  match w with
  | .drain => { s with buffer := { s.buffer with drain := some c } }
  | .through n => setThrough n (fun t => { t with stage := .course, course := c }) s

/-- The writer a request of the work list is made by. -/
def Request.writer : Request → Option Writer
  | .reassign (.writer w) _ _ _ _ => some w
  | .reassign (.job _) _ _ _ _ => none
  | .storage w _ _ _ => some w
  | .recording w _ _ => some w
  | .noData _ _ => none

/-- A request joins the work list (R106); a through-write's reassign counts as begun from then on (R74). -/
def joinWork (r : Request) (s : State) : State :=
  let s := { s with remap := { s.remap with workList := s.remap.workList ++ [r] } }
  match r.writer with
  | some (.through n) => setThrough n (fun t => { t with listed := true }) s
  | _ => s

/-- Place an operation of a writer's course. -/
def placeCourseOp (purpose : Purpose) (line : Nat) (action : OpAction) (first : Bool) (s : State) : State :=
  placeOp { purpose := purpose, arrayLine := line, action := action, first := first, issued := false } s

/-- From its grant on, a through-write stands behind the ones granted before it (R98). -/
def orderByGrant (w : Writer) (s : State) : State :=
  match w with
  | .drain => s
  | .through n =>
    { s with
      path :=
        { s.path with
          throughs := s.path.throughs.filter (fun t => t.serial != n) ++ s.path.throughs.filter fun t => t.serial == n } }

/-- Begin a course: the line is resolved, and the first operation is chosen by the mask and the data state (R60). -/
def startCourse (w : Writer) (line : Nat) (mask : Mask) (bytes : LineData) (s : State) : State :=
  let s := orderByGrant w s
  let c : Course :=
    { line := line, mask := mask, bytes := bytes, mapped := mappedLine s line, view := dataState s line
      drainLine := bytes, known := mask }
  if mask = Mask.full then
    placeCourseOp (.mappedProgram w) c.mapped (.program (.bytes bytes)) true (setCourse w c s)
  else if c.view = .poisoned then
    let c := { c with drainLine := overlay mask bytes zeroLine }
    joinWork (.storage w line c.drainLine mask) (setCourse w c s)
  else placeCourseOp (.mergeRead w) c.mapped .read true (setCourse w c s)

/-- How a course ends (R66, R74). -/
inductive Ending where
  | programmed
  | lost (cause : LossCause)
deriving DecidableEq, Repr

/-- A discarded entry: DATA_LOSS with its incident, and the count of an open DRAIN_ALL (R66, R69). -/
def reportLoss (e : SystemEntry) (cause : LossCause) (s : State) : State :=
  let s := writeIncident
    { kind := .dataLoss, line := some e.line, port := some e.firstWriter, detail := some (BitVec.ofNat 8 cause.code)
      index := none }
    (post .dataLoss s)
  match s.mgmt.busy, e.target with
  | some (.drainAll n d), true => { s with mgmt := { s.mgmt with busy := some (.drainAll n (d + 1)) } }
  | _, _ => s

/-- The drain in progress ends and its entry leaves the buffer (R66). -/
def endDrain (e : Ending) (s : State) : State :=
  match s.buffer.drain with
  | none => s
  | some c =>
    let s := match e, drainingEntry s with
      | .lost cause, some entry => reportLoss entry cause s
      | _, _ => s
    dropClaim c.line .drain
      { s with
        buffer :=
          { s.buffer with entries := s.buffer.entries.filter fun x => x.state != .draining, drain := none } }

/-- Take a through-write out of the Line Path, with its claim or claim request. -/
def dropThrough (t : ThroughWrite) (s : State) : State :=
  dropClaim t.course.line (.through t.serial)
    { s with path := { s.path with throughs := s.path.throughs.filter fun x => x.serial != t.serial } }

/-- Answer a through-write, if a port still waits for it (R20). -/
def answerThrough (t : ThroughWrite) (code : ResponseCode) (s : State) : State :=
  match t.port with
  | some p => answer p t.serial (plainResponse .write 0 code) s
  | none => s

/-- A through-write's course ends (R74). -/
def endThrough (serial : Nat) (e : Ending) (s : State) : State :=
  match throughOf s serial with
  | none => s
  | some t =>
    let code := match e with
      | .programmed => ResponseCode.ok
      | .lost _ => ResponseCode.writeFailed
    answerThrough t code (dropThrough t s)

/-- A writer's course ends. -/
def endCourse (w : Writer) (e : Ending) (s : State) : State :=
  match w with
  | .drain => endDrain e s
  | .through n => endThrough n e s

/-- The line has been programmed: on a POISONED or PARTIAL line the new state is to be recorded, and otherwise the
course ends (R62). -/
def recordOrEnd (w : Writer) (c : Course) (s : State) : State :=
  match c.view with
  | .intact => endCourse w .programmed s
  | .poisoned | .partialOf _ => joinWork (.recording w c.line c.known) s

/-- A through-write whose line has left the buffer requests its claim, and begins its course if the claim is granted
at once (R72, R73, log entry 20). -/
def claimThrough (t : ThroughWrite) (s : State) : State :=
  let granted := grantedAtOnce s t.course.line .exclusive
  let s := requestClaim t.course.line .exclusive (.through t.serial)
    (setThrough t.serial (fun t => { t with stage := .waitClaim }) s)
  if granted then startCourse (.through t.serial) t.course.line t.course.mask t.course.bytes s else s

end Sys2Proof.Machine
end

