-- ==== Sys2Proof/Machine/Remap.lean ====
section
/-!
DEFINITION. The Remap Unit's service of its work list: reassigns, storages, recordings (R106 to R117), and the
metadata fault with the completion of metadata programs (R119, R157, R167).
-/

namespace Sys2Proof.Machine

/-! ### Outcomes (R106) -/

/-- The outcome of a request (R106). -/
inductive Verdict where
  | succeeded
  | noSpare
  | metadata
deriving DecidableEq, Repr

/-- What an outcome means for a drain or through-write (R64, R65). -/
def Verdict.ending : Verdict → Ending
  | .succeeded => .programmed
  | .noSpare => .lost .noSpare
  | .metadata => .lost .metadata

/-- The request at the head of the work list has its outcome: it leaves the list and its requester acts on it. -/
def conclude (v : Verdict) (s : State) : State :=
  match s.remap.workList with
  | [] => s
  | r :: rest =>
    let s := { s with remap := { s.remap with workList := rest, serving := none } }
    match r with
    | .reassign (.writer w) line _ _ origin =>
      -- R63, R64: a candidate whose reassign succeeded leaves the list
      let s := if v = .succeeded ∧ origin ≠ .mergeFail then removeCandidate line s else s
      endCourse w v.ending s
    | .reassign (.job j) _ _ _ _ => endJob j s
    | .storage w _ _ _ => endCourse w v.ending s
    | .recording w _ _ => endCourse w .programmed s
    | .noData line _ =>
      let s := dropClaim line .noData s
      if v = .succeeded then s else candidateLost line s

/-! ### The reassign (R108 to R112) -/

/-- The data state a known mask gives (R110). -/
def stateOfMask (known : Mask) : DataState := if known = Mask.full then .intact else .partialOf known

/-- What the IN_USE record of the request at the head carries: line, data state, origin (R110, R112). -/
def Request.record : Request → Option (Nat × DataState × Origin)
  | .reassign _ line _ known origin => some (line, stateOfMask known, origin)
  | .noData line origin => some (line, .poisoned, origin)
  | .storage _ _ _ _ => none
  | .recording _ _ _ => none

/-- The generation of a line's next entry (R102). -/
def nextGeneration (s : State) (line : Nat) : BitVec 8 :=
  match remapEntry s line with
  | some e => e.generation + 1#8
  | none => 0#8

/-- Note what the head of the work list waits for. -/
def setServing (v : Serving) (s : State) : State := { s with remap := { s.remap with serving := some v } }

/-- Request the image program of a slot for the Remap Unit (R105). -/
def requestImage (slot : Nat) (s : State) : State := requestMeta (.image (slot / 4)) .remap s

/-- The reassign reaches its IN_USE record (R110). -/
def placeInUse (slot : Nat) (s : State) : State :=
  match s.remap.workList.head?.bind Request.record with
  | none => s
  | some (line, data, origin) =>
    requestImage slot
      (setServing (.inUse slot) (setRecord slot (.inUse line data origin (nextGeneration s line)) s))

/-- Judge the reassign at the head (R108), and take its next step: the spare program of its trial slot, or for a
reassign with no data its IN_USE record. -/
def judgeReassign (s : State) : State :=
  if s.remap.fault then conclude .metadata s
  else match lowestFree s with
    | none => conclude .noSpare s
    | some slot =>
      match s.remap.workList with
      | .reassign _ _ data _ _ :: _ =>
        placeCourseOp .spareProgram (spareLine s slot) (.program (.bytes data)) false (setServing (.spare slot) s)
      | .noData _ _ :: _ => placeInUse slot s
      | _ => s

/-- The spare program of the trial slot completes (R109, R113). -/
def spareDone (slot : Nat) (ok : Bool) (s : State) : State :=
  if ok then
    if s.remap.fault then conclude .metadata s else placeInUse slot s
  else
    let s := killSlot slot s
    if s.remap.fault then conclude .metadata s else requestImage slot (setServing (.deadRecord slot) s)

/-- The entry goes live, in one event; then the replaced slot's DEAD record is programmed, or the reassign has
succeeded (R110, R111, R113). -/
def goLive (slot : Nat) (s : State) : State :=
  match s.remap.workList.head?.bind Request.record with
  | none => s
  | some (line, data, origin) =>
    let former := remapEntry s line
    let before := freeCount s
    let entry : RemapEntry := { slot := slot, data := data, origin := origin, generation := nextGeneration s line }
    let s := { s with remap := { s.remap with table := sparseSet s.remap.table line entry } }
    let s := match former with
      | some f =>
        setRecord f.slot .dead { s with remap := { s.remap with dead := insertNat s.remap.dead f.slot } }
      | none => s
    let s := postThresholds before s
    let s := writeIncident
      { kind := .remapped, line := some line, port := none, detail := some (BitVec.ofNat 8 (originCode origin))
        index := some slot }
      (post .remapped s)
    let s := removeQueuedJob line s
    match former with
    | some f =>
      if s.remap.fault then conclude .succeeded s else requestImage f.slot (setServing (.oldSlot f.slot) s)
    | none => conclude .succeeded s

/-! ### Recordings and storages (R115, R117) -/

/-- The state a recording forms from the entry as it stands and the known mask (R115). -/
def recordedState (s : State) (line : Nat) (known : Mask) : DataState :=
  stateOfMask (validMaskOf (dataState s line) ||| known)

/-- Place a new data state into a line's entry; origin and generation are kept (R115). -/
def setDataState (line : Nat) (data : DataState) (s : State) : State :=
  match remapEntry s line with
  | none => s
  | some e => { s with remap := { s.remap with table := sparseSet s.remap.table line { e with data := data } } }

/-- Record a new data state for the request at the head: under the fault in the table and the record alone, and
otherwise by an image program (R115). -/
def beginRecording (line : Nat) (known : Mask) (s : State) : State :=
  match remapEntry s line with
  | none => conclude .succeeded s
  | some e =>
    let data := recordedState s line known
    let s := setRecord e.slot (.inUse line data e.origin e.generation) s
    if s.remap.fault then conclude .succeeded (setDataState line data s)
    else requestImage e.slot (setServing (.recording data) s)

/-- The line of the request at the head. -/
def headLine (s : State) : Nat :=
  match s.remap.workList with
  | .reassign _ line _ _ _ :: _ => line
  | .storage _ line _ _ :: _ => line
  | .recording _ line _ :: _ => line
  | .noData line _ :: _ => line
  | [] => 0

/-- The storage at the head goes on as a reassign with data and origin MERGE_FAIL, from R108, in the same step
(R117, log entry 21). -/
def storageToReassign (s : State) : State :=
  match s.remap.workList with
  | .storage w line data mask :: rest =>
    judgeReassign
      { s with
        remap :=
          { s.remap with workList := .reassign (.writer w) line data mask .mergeFail :: rest, serving := none } }
  | _ => s

/-- Serve the merge-fail storage at the head (R117). -/
def serveStorage (s : State) : State :=
  match s.remap.workList with
  | .storage w line data _ :: _ =>
    if dataState s line = .poisoned then
      if s.remap.fault then conclude .metadata s
      else
        placeCourseOp (.storageProgram w) (mappedLine s line) (.program (.bytes data)) true (setServing .storage s)
    else storageToReassign s
  | _ => s

/-- The program of the POISONED line's spare completes (R117). -/
def storageDone (ok : Bool) (s : State) : State :=
  match s.remap.workList with
  | .storage _ line _ mask :: _ => if ok then beginRecording line mask s else storageToReassign s
  | _ => s

/-! ### Completions and withdrawals of image programs (R109 to R115) -/

/-- An image program the head waited for completes. On PROGRAM_FAIL the fault has been set already. -/
def imageDone (ok : Bool) (s : State) : State :=
  match s.remap.serving with
  | some (.deadRecord _) => if ok then judgeReassign s else conclude .metadata s
  | some (.inUse slot) => if ok then goLive slot s else conclude .metadata (killSlot slot s)
  | some (.oldSlot _) => conclude .succeeded s
  | some (.recording data) => conclude .succeeded (setDataState (headLine s) data s)
  | some (.spare _) => s
  | some .storage => s
  | none => s

/-- An image program the head waited for is withdrawn before its issue, because the fault was set (R113, R115). -/
def imageWithdrawn (s : State) : State :=
  match s.remap.serving with
  | some (.deadRecord _) => conclude .metadata s
  | some (.inUse slot) => conclude .metadata (setRecord slot .free s)
  | some (.oldSlot _) => conclude .succeeded s
  | some (.recording data) => conclude .succeeded (setDataState (headLine s) data s)
  | some (.spare _) => s
  | some .storage => s
  | none => s

/-! ### The metadata fault (R119) -/

/-- A settings program of the command in progress is withdrawn or has failed (R26, R50, R119). -/
def settingsFailed (s : State) : State :=
  match s.mgmt.busy with
  | some .header => complete .metadataFault s
  | some (.save _) => complete .metadataFault s
  | _ => s

/-- Take a line off the repair list; a repair program already placed for it stays (log entry 16). -/
def unlistRepair (t : MetaLine) (s : State) : State :=
  { s with metaCtl := { s.metaCtl with repair := s.metaCtl.repair.filter fun u => decide (u ≠ t) } }

/-- Answer one request of a withdrawn metadata program (R119). -/
def withdrawn (t : MetaLine) (a : MetaAsker) (s : State) : State :=
  match a with
  | .remap => imageWithdrawn s
  | .command => settingsFailed s
  | .repair => unlistRepair t s

/-- A pending metadata program that has never been issued (R119). -/
def ArrayOp.withdrawable (o : ArrayOp) : Bool :=
  match o.purpose with
  | .metaProgram _ _ => !o.issued
  | .formatProgram _ => !o.issued
  | _ => false

/-- Answer every request of a withdrawn operation. -/
def withdrawOp (o : ArrayOp) (s : State) : State :=
  match o.purpose with
  | .metaProgram t askers => askers.foldl (fun s a => withdrawn t a s) s
  | _ => s

/-- Set the metadata-fault condition: the flag, the withdrawal of never-issued metadata programs with their answers,
and in REPAIRING the end of the repair (R119). -/
def setFault (s : State) : State :=
  if s.remap.fault then s
  else
    let s := post .metadataFault { s with remap := { s.remap with fault := true } }
    let gone := s.link.work.filter (·.withdrawable)
    let s := gone.foldl (fun s o => withdrawOp o s) (removeWork (·.withdrawable) s)
    if s.metaCtl.phase = .repairing then
      setPhase .fullReady { s with metaCtl := { s.metaCtl with repair := [] } }
    else s

/-! ### Completions of metadata programs (R157) -/

/-- A settings program of the command in progress completes PROGRAM_OK; under a fault set elsewhere a SAVE_SETTINGS ends
there (R26, R49, R50, log entry 27). -/
def settingsDone (s : State) : State :=
  match s.mgmt.busy with
  | some .header => complete .done s
  | some (.save []) => complete .done s
  | some (.save (j :: rest)) =>
    if s.remap.fault then complete .metadataFault s
    else requestMeta (.settings j) .command { s with mgmt := { s.mgmt with busy := some (.save rest) } }
  | _ => s

/-- Deliver a completion to one request it served (R157). -/
def deliver (ok : Bool) (a : MetaAsker) (s : State) : State :=
  match a with
  | .remap => imageDone ok s
  | .command => if ok then settingsDone s else settingsFailed s
  | .repair => s

/-- A metadata program completes: a failure sets the fault, the line leaves the repair list, every request is
answered, and then the repair goes on, so that a requester's next program is placed before the next repair program
(R119, R157, R167, log entry 33). -/
def metaProgramDone (t : MetaLine) (askers : List MetaAsker) (ok : Bool) (s : State) : State :=
  let s := if ok then s else setFault s
  -- on PROGRAM_OK the line leaves whatever caused the program; on PROGRAM_FAIL the fault has emptied the list
  let s := if ok then unlistRepair t s else s
  advanceRepair (askers.foldl (fun s a => deliver ok a s) s)

end Sys2Proof.Machine
end

