-- ==== Sys2Proof/Machine/Scheduler.lean ====
section
/-!
DEFINITION. The Array Scheduler and the Array Link: the composition of metadata lines at issue (R157), the choice of
the next operation (R96 to R98), the issue, and the two edges of AGNT (R85, R91).
-/

namespace Sys2Proof.Machine

/-! ### Metadata lines (R155 to R157, R164) -/

/-- The contents of a metadata line, composed whole from the internal values as they stand (R157). A header so composed
carries the fixed format marker, which the spec gives no value for (R26, log entry 7). -/
def composeLine (s : State) (t : MetaLine) : Content :=
  match t with
  | .image k => .image ((List.range 4).map fun i => slotRecord s (4 * k + i))
  | .settings 0 => .header s.pins.geom s.fence.stored s.fence.lockAtStart s.fence.retain
  | .settings 1 => .classes s.tables.storedClasses
  | .settings j => .regions ((s.tables.storedRegions.drop (4 * (j - 2))).take 4)

/-- The line of the n-th formatting program: the image lines, settings lines 1 to 5, and last the header (R164). -/
def formatTarget (n : Nat) : MetaLine :=
  if n < 1024 then .image n else if n < 1029 then .settings (n - 1023) else .settings 0

/-- The contents of the n-th formatting program: FREE records and format defaults (R156, R164). -/
def formatContent (s : State) (n : Nat) : Content :=
  match formatTarget n with
  | .image _ => .image (List.replicate 4 .free)
  | .settings 0 => .header s.pins.geom s.fence.uNative false false
  | .settings 1 => .classes (List.replicate 4 classDefault)
  | .settings _ => .regions (List.replicate 4 regionDefault)

/-! ### The choice (R96 to R98) -/

/-- The work kind of a pending operation (R96). -/
def ArrayOp.kind (s : State) (o : ArrayOp) : WorkKind :=
  match o.purpose with
  | .loadRead _ | .metaProgram _ _ | .formatProgram _ => .metadata
  | .spareProgram => .continuation
  | .systemRead _ => .systemRead
  | .jobRead _ => .relocation
  | .patrolRead _ => .patrol
  | .mergeRead w | .mappedProgram w | .storageProgram w | .verifyRead w =>
    if o.first then
      match w with
      | .drain => if drainUrgent s then .urgentDrain else .drain
      | .through _ => .throughWrite
    else .continuation

/-- The start-up phase permits an operation to be issued (R97). -/
def issuable (s : State) (o : ArrayOp) : Bool :=
  match s.metaCtl.phase with
  | .geometryFault | .unformatted => false
  | .loading =>
    match o.purpose with
    | .loadRead _ => true
    | _ => false
  | .formatting =>
    match o.purpose with
    | .formatProgram _ => true
    | _ => false
  | .readReady => !o.isProgram
  | .repairing | .fullReady => true

/-- The eight kinds, first to last (R97). -/
def workOrder : List WorkKind :=
  [.metadata, .continuation, .urgentDrain, .systemRead, .throughWrite, .drain, .relocation, .patrol]

/-- The first issuable operation of a kind: an abandoned one, then the order of placing, and for through-writes the
order of the grants of their claims (R98). -/
def firstOfKind (s : State) (k : WorkKind) : Option ArrayOp :=
  let ops := s.link.work.filter fun o => issuable s o && decide (o.kind s = k)
  match k with
  | .throughWrite =>
    ((ops.find? fun o => o.issued).or
      (s.path.throughs.findSome? fun t => ops.find? fun o => decide (o.purpose.writer = some (.through t.serial)))).or
      ops.head?
  | _ => ops.head?

/-- The operation the scheduler issues next (R97). -/
def choose (s : State) : Option ArrayOp := workOrder.findSome? (firstOfKind s)

/-- An operation as it goes to the port: a metadata program is composed now, and a patrol read is resolved now
(R82, R157). -/
def atIssue (s : State) (o : ArrayOp) : ArrayOp :=
  match o.action, o.purpose with
  | .compose, .metaProgram t _ => { o with action := .program (composeLine s t), issued := true }
  | .compose, .formatProgram n => { o with action := .program (formatContent s n), issued := true }
  | _, .patrolRead line => { o with arrayLine := mappedLine s line, issued := true }
  | _, _ => { o with issued := true }

/-- Issue an operation: it leaves the pending work and is in flight (R82). -/
def issueOp (o : ArrayOp) (s : State) : State :=
  let t := { s with link := { s.link with work := s.link.work.erase o, inFlight := some (atIssue s o) } }
  match o.purpose.writer with
  | some (.through n) => setThrough n (fun x => { x with issued := true }) t
  | _ => t

/-- With the port free and AGNT asserted, the first issuable operation in work-kind order is issued (R82, R97). -/
def issueNext (s : State) : State :=
  if s.link.inFlight.isSome || !s.pins.agnt then s
  else match choose s with
    | none => s
    | some o => issueOp o s

/-- ARRAY_ISSUE (R97). -/
def execArrayIssue (s : State) : Host.Outcome State Fault Refusal := onPart issueNext s

/-! ### AGNT (R83 to R87, R91) -/

/-- AGNT rises: the unavailable condition is cleared with AVAILABLE, and the grant wait ends (R87, R91). -/
def grantReturns (s : State) : State :=
  let t := { s with link := { s.link with unavailable := false, waitTicks := 0 } }
  if s.link.unavailable then post .available t else t

/-- AGNT_ASSERT (R91). -/
def execAgntAssert (s : State) : Host.Outcome State Fault Refusal :=
  if s.pins.agnt then .next s
  else onPart grantReturns { s with pins := { s.pins with agnt := true } }

/-- AGNT falls: an operation in flight is abandoned and becomes pending again at the head of its kind (R85). -/
def grantFalls (s : State) : State :=
  match s.link.inFlight with
  | some o =>
    post .grantWithdrawn { s with link := { s.link with work := o :: s.link.work, inFlight := none, waitTicks := 0 } }
  | none => s

/-- AGNT_WITHDRAW (R85). -/
def execAgntWithdraw (s : State) : Host.Outcome State Fault Refusal :=
  if s.pins.agnt then onPart grantFalls { s with pins := { s.pins with agnt := false } } else .next s

end Sys2Proof.Machine
end

