-- ==== Sys2Proof/Machine/Reads.lean ====
section
/-!
DEFINITION. System reads from the forwarding snapshot to their end (R15 to R18), and the end of the work that masters
wait on: withdrawals and answers that resets, PWARN and the grant wait limit give (R6, R14, R57, R74, R89).
-/

namespace Sys2Proof.Machine

/-- Some byte of the mask cannot be returned truthfully, by the line's data state (R16). -/
def poisonedFor (s : State) (line : Nat) (uncovered : Mask) : Bool :=
  match dataState s line with
  | .intact => false
  | .poisoned => true
  | .partialOf m => decide (uncovered &&& ~~~m ≠ Mask.empty)

/-- Answer a system read, unless SRST has discarded its transaction (R6). -/
def answerRead (r : SystemRead) (x : Response) (s : State) : State :=
  if r.answered then answer r.port r.serial x s else s

/-- The answer of a read with a code that returns no data (R1). -/
def refuseRead (r : SystemRead) (code : ResponseCode) (s : State) : State :=
  answerRead r (plainResponse .read r.size code) s

/-- A system read ends: its claim, held or requested, leaves the table (R92). -/
def endRead (r : SystemRead) (s : State) : State :=
  dropClaim r.line (.read r.serial)
    { s with path := { s.path with reads := s.path.reads.filter fun x => x.serial != r.serial } }

/-- A system read is withdrawn: its ARRAY_READ is removed from the pending work, and it ends (R6, R89). -/
def withdrawRead (r : SystemRead) (s : State) : State :=
  endRead r (removeWork (fun o => decide (o.purpose = .systemRead r.serial)) s)

/-- The system read of a stamp. -/
def readOf (s : State) (serial : Nat) : Option SystemRead := s.path.reads.find? fun r => r.serial == serial

/-- The bytes a read still needs from the array. -/
def SystemRead.uncovered (r : SystemRead) : Mask := spanMask r.offset r.size &&& ~~~r.covered

/-- The read's claim is granted: the second judgement, and the placing of its ARRAY_READ (R17). -/
def readGranted (r : SystemRead) (s : State) : State :=
  if poisonedFor s r.line r.uncovered then endRead r (refuseRead r .poison s)
  else placeRead r.serial (mappedLine s r.line) s

/-- A through-write is withdrawn: its operations are removed from the pending work, and its claim or claim request
from the table (R6, R14, R74). -/
def withdrawThrough (t : ThroughWrite) (s : State) : State :=
  dropThrough t (removeWork (fun o => decide (o.purpose.writer = some (.through t.serial))) s)

/-- The requests of a writer leave the work list, and what the one at the head waited for with it (log entry 10). A
writer that has had no operation issued has at most a merge-fail storage there (R73, R117). -/
def withdrawRequests (w : Writer) (s : State) : State :=
  { s with
    remap :=
      { s.remap with
        workList := s.remap.workList.filter fun r => decide (r.writer ≠ some w)
        serving := if s.remap.workList.head?.bind Request.writer = some w then none else s.remap.serving } }

/-- A through-write runs on without a response (R6, R74). -/
def orphanThrough (t : ThroughWrite) (s : State) : State := setThrough t.serial (fun x => { x with port := none }) s

/-- Every posted write waiting at intake is answered with one code (R14, R57). -/
def answerWaiting (code : ResponseCode) (s : State) : State :=
  let t := s.buffer.waiting.foldl (fun t w => answer w.port w.serial (plainResponse .write 0 code) t) s
  { t with buffer := { t.buffer with waiting := [] } }

/-- What the expiry does to a through-write: answered UNAVAILABLE, and ended unless its reassign has begun (R74, R89);
one that SRST left running goes on (log entry 11). -/
def expireThrough (t : ThroughWrite) (s : State) : State :=
  match t.port with
  | none => s
  | some _ =>
    if t.listed then orphanThrough t (answerThrough t .unavailable s)
    else withdrawThrough t (answerThrough t .unavailable s)

/-- The grant wait timer expires (R89). A system read that SRST left in flight without an answer, and whose ARRAY_READ
was then abandoned, is withdrawn as the other reads are (log entry 30). -/
def expire (s : State) : State :=
  let s := post .unavailable { s with link := { s.link with unavailable := true, waitTicks := 0 } }
  let s := s.path.reads.foldl (fun t r => withdrawRead r (refuseRead r .unavailable t)) s
  let s := s.path.throughs.foldl (fun t w => expireThrough w t) s
  answerWaiting .unavailable s

/-- The grant wait timer has reached the limit in force, which is not 0 (R87). -/
def grantExpired (s : State) : Bool :=
  grantWait s && decide (s.link.limit ≠ 0 ∧ s.link.limit * Config.ticksPerMs ≤ s.link.waitTicks)

/-- GRANT_WAIT_EXPIRY (R89): acted on only when the timer has expired (log entry 3). -/
def execGrantWaitExpiry (s : State) : Host.Outcome State Fault Refusal :=
  onPart (fun s => if grantExpired s then settle (expire s) else s) s

end Sys2Proof.Machine
end

