-- ==== Sys2Proof/Machine/Intake.lean ====
section
/-!
DEFINITION. The ports: taking a transaction (R2), the eight intake checks (R9 to R20, R145 to R151), the waiting posted
writes and through-writes (R57, R72), and sending responses (R3).
-/

namespace Sys2Proof.Machine

/-! ### Taking -/

/-- A port takes a transaction into the young end of its queue (R2). -/
def takeTransaction (p : Port) (tx : Transaction) (s : State) : State :=
  if s.pins.srst ∨ Config.portDepth ≤ (queueOf s p).length then s
  else
    setQueue p (queueOf s p ++ [{ serial := s.path.serial, tx := tx, stand := .taken }])
      { s with path := { s.path with serial := s.path.serial + 1 } }

/-- TRANSACTION_TAKE (R2). -/
def execTransactionTake (p : Port) (tx : Transaction) (s : State) : Host.Outcome State Fault Refusal :=
  onPart (takeTransaction p tx) s

/-! ### Range watches (R145, R146) -/

/-- The kinds of an entry cover a transaction's kind (R145). -/
def WatchKinds.covers (k : WatchKinds) (a : Access) : Bool :=
  match k, a with
  | .both, _ => true
  | .read, .read => true
  | .read, .write => false
  | .write, .write => true
  | .write, .read => false

/-- The ports of an entry cover a port (R145). -/
def WatchPorts.covers (w : WatchPorts) (p : Port) : Bool :=
  match w, p with
  | .both, _ => true
  | .a, .a => true
  | .a, .b => false
  | .b, .b => true
  | .b, .a => false

/-- The last system byte address of a well-formed transaction's span (R145). -/
def txLast (tx : Transaction) : Nat := tx.addr.toNat + tx.size - 1

/-- A transaction matches a range watch entry: enabled, span, kind, port (R145). -/
def rangeMatches (p : Port) (tx : Transaction) (r : RangeWatch) : Bool :=
  r.enabled && decide (tx.addr.toNat ≤ r.last) && decide (r.first ≤ txLast tx) && r.kinds.covers tx.kind
    && r.ports.covers p

/-- Step 5: the hit flags, the WATCH_HIT flag and the one incident of a match (R146). -/
def watchStep (p : Port) (tx : Transaction) (s : State) : State :=
  match s.watch.ranges.findIdx? (rangeMatches p tx) with
  | none => s
  | some i =>
    let tag := (s.watch.ranges.getD i RangeWatch.cleared).tag
    let ranges := s.watch.ranges.map fun r => if rangeMatches p tx r then { r with hit := true } else r
    writeIncident
      { kind := .watchHit, line := some (txLine tx), port := some p, detail := some tag, index := some i }
      (post .watchHit { s with watch := { s.watch with ranges := ranges } })

/-- Some matching entry has the action REFUSE (R146). -/
def watchRefuses (p : Port) (tx : Transaction) (s : State) : Bool :=
  s.watch.ranges.any fun r => rangeMatches p tx r && r.action == .refuse

/-! ### The sequence watch (R149 to R151) -/

/-- A transaction matches a target: its kind, and the address within its span (R149). -/
def targetMatches (tx : Transaction) (t : Target) : Bool :=
  t.kind == tx.kind && decide (tx.addr.toNat ≤ t.addr) && decide (t.addr ≤ txLast tx)

/-- The target of an index. -/
def targetAt (s : State) (k : Nat) : Target := s.watch.targets.getD k Target.atRelease

/-- Set the index. -/
def setIndex (i : Nat) (s : State) : State := { s with watch := { s.watch with index := i } }

/-- Step 6: an ARMED sequence watch tests the transaction (R150, R151). -/
def sequenceStep (p : Port) (tx : Transaction) (s : State) : State :=
  if !s.watch.armed then s
  else if targetMatches tx (targetAt s s.watch.index) then
    if s.watch.index + 1 < s.watch.count then setIndex (s.watch.index + 1) s
    else
      writeIncident
        { kind := .sequenceComplete, line := some (txLine tx), port := some p
          detail := some (targetAt s (s.watch.count - 1)).tag, index := none }
        (post .sequenceComplete (setIndex 0 s))
  else match (List.range s.watch.count).find? fun j => targetMatches tx (targetAt s j) with
    | none => s
    | some j =>
      writeIncident
        { kind := .sequenceBreak, line := some (txLine tx), port := some p, detail := some (targetAt s j).tag
          index := some s.watch.index }
        (post .sequenceBreak (setIndex 0 s))

/-! ### Step 8 for a READ (R15 to R17) -/

/-- Answer a transaction at intake with a code that returns no data (R1). -/
def refuse (p : Port) (t : Taken) (code : ResponseCode) (s : State) : State :=
  answer p t.serial (plainResponse t.tx.kind t.tx.size code) s

/-- A READ at step 8: forwarding snapshot, data state judgement, link state, and the shared claim (R15, R16). -/
def intakeRead (p : Port) (t : Taken) (s : State) : State :=
  let line := txLine t.tx
  let offset := txOffset t.tx
  let covered := spanMask offset t.tx.size &&& forwardMask s line
  let r : SystemRead :=
    { serial := t.serial, port := p, line := line, offset := offset, size := t.tx.size, covered := covered
      snapshot := forwardData s line, answered := true }
  if r.uncovered = Mask.empty then
    answer p t.serial { code := .ok, data := slice r.snapshot offset t.tx.size } s
  else if poisonedFor s line r.uncovered then refuse p t .poison s
  else if s.link.unavailable then refuse p t .unavailable s
  else
    let granted := grantedAtOnce s line .shared
    let s := setStand p t.serial .reading { s with path := { s.path with reads := s.path.reads ++ [r] } }
    let s := requestClaim line .shared (.read t.serial) s
    if granted then readGranted r s else s

/-! ### Step 8 for a WRITE (R19, R20, R55, R57, R72) -/

/-- The posted write waits at intake (R57). -/
def waitForEntry (p : Port) (t : Taken) (mask : Mask) (data : LineData) (s : State) : State :=
  let w : WaitingWrite := { port := p, serial := t.serial, line := txLine t.tx, mask := mask, data := data }
  setStand p t.serial .waiting { s with buffer := { s.buffer with waiting := s.buffer.waiting ++ [w] } }

/-- A posted write reaches the buffer: merged, placed, waiting, or UNAVAILABLE (R55, R57). While another write waits
for an entry, a new one is not placed before it (log entry 9). A new entry may end READ_READY (R166). -/
def intakePosted (p : Port) (t : Taken) (s : State) : State :=
  let line := txLine t.tx
  let mask := spanMask (txOffset t.tx) t.tx.size
  let data := placeBytes (txOffset t.tx) t.tx.data
  let placed :=
    if (pendingEntry s line).isSome || s.buffer.waiting.isEmpty then placePosted p line mask data s else none
  match placed with
  | some s => settle (refuse p t .ok s)
  | none => if s.link.unavailable then refuse p t .unavailable s else waitForEntry p t mask data s

/-- The buffer holds no entry, PENDING or DRAINING, for the line (R72). -/
def lineClear (s : State) (line : Nat) : Bool := (pendingEntry s line).isNone && (lineDraining s line).isNone

/-- A through-write begins: UNAVAILABLE at once, or it holds its port's intake, ends READ_READY, and claims its line as
soon as the buffer holds no entry for it (R20, R72, R166). -/
def intakeThrough (p : Port) (t : Taken) (s : State) : State :=
  if s.link.unavailable then refuse p t .unavailable s
  else
    let line := txLine t.tx
    let mask := spanMask (txOffset t.tx) t.tx.size
    let data := placeBytes (txOffset t.tx) t.tx.data
    let c : Course :=
      { line := line, mask := mask, bytes := data, mapped := line, view := .intact, drainLine := data, known := mask }
    let w : ThroughWrite :=
      { serial := t.serial, port := some p, stage := .waitLine, course := c, issued := false, listed := false }
    let s := setStand p t.serial .through { s with path := { s.path with throughs := s.path.throughs ++ [w] } }
    let s := if s.metaCtl.phase = .readReady then enterRepairing s else s
    if lineClear s line then claimThrough w s else s

/-- A WRITE at step 8: the posting decision (R19, R42). -/
def intakeWrite (p : Port) (t : Taken) (cls : Nat) (s : State) : State :=
  if (classEntry s cls).mode = .posted ∧ !postingSuspended s then intakePosted p t s else intakeThrough p t s

/-! ### The checks in order (R9) -/

/-- Steps 5 to 8 (R13 to R20). -/
def checkWatches (p : Port) (t : Taken) (cls : Nat) (s : State) : State :=
  let refused := watchRefuses p t.tx s
  let s := watchStep p t.tx s
  if refused then refuse p t .watchRefused s
  else
    let s := sequenceStep p t.tx s
    match t.tx.kind with
    | .read => intakeRead p t s
    | .write => if s.pins.pwarn then refuse p t .retry s else intakeWrite p t cls s

/-- The ordered checks of a transaction at intake (R9). -/
def checkTransaction (p : Port) (t : Taken) (s : State) : State :=
  if serviceState s ≠ .inService then refuse p t .retry s
  else if !txFormed t.tx then refuse p t .malformed (post .malformed s)
  else if s.fence.current ≤ txLine t.tx then refuse p t .beyondFence (post .beyondFence s)
  else
    let look := regionLookup s (txLine t.tx)
    if !look.allows p t.tx.kind then refuse p t .denied (post .denied s) else checkWatches p t look.cls s

/-- The transaction has left intake (R4). -/
def Stand.left : Stand → Bool
  | .taken => false
  | .waiting => false
  | .through => false
  | .reading => true
  | .decided _ => true

/-- The transaction at a port's intake: the oldest that has not left it (R4). -/
def atIntake (s : State) (p : Port) : Option Taken := (queueOf s p).find? fun t => !t.stand.left

/-- The transaction at intake is checked; a stalled port checks none (R4). -/
def runIntake (p : Port) (s : State) : State :=
  match atIntake s p with
  | none => s
  | some t => if t.stand = .taken then checkTransaction p t s else s

/-- INTAKE (R9). -/
def execIntake (p : Port) (s : State) : Host.Outcome State Fault Refusal := onPart (runIntake p) s

/-! ### Waiting writes (R57) and through-writes (R72) -/

/-- Take one waiting write again under R55. -/
def retryWaiting (w : WaitingWrite) (s : State) : State :=
  match placePosted w.port w.line w.mask w.data s with
  | none => s
  | some s =>
    answer w.port w.serial (plainResponse .write 0 .ok)
      { s with buffer := { s.buffer with waiting := s.buffer.waiting.filter fun x => x.serial != w.serial } }

/-- The waiting writes are taken again, in the order in which they began to wait (R57). -/
def placeWaiting (s : State) : State := s.buffer.waiting.foldl (fun t w => retryWaiting w t) s

/-- WAITING_WRITE_PLACE (R57). -/
def execWaitingWritePlace (s : State) : Host.Outcome State Fault Refusal :=
  onPart (fun s => settle (placeWaiting s)) s

/-- The through-write of a port that waits for its line to leave the buffer (R72). -/
def waitingThrough (s : State) (p : Port) : Option ThroughWrite :=
  s.path.throughs.find? fun t => decide (t.port = some p ∧ t.stage = .waitLine)

/-- The through-write of a port requests its claim once its line has left the buffer (R72). -/
def requestThrough (p : Port) (s : State) : State :=
  match waitingThrough s p with
  | none => s
  | some t => if lineClear s t.course.line then claimThrough t s else s

/-- THROUGH_WRITE_CLAIM_REQUEST (R72). -/
def execThroughWriteClaimRequest (p : Port) (s : State) : Host.Outcome State Fault Refusal :=
  onPart (requestThrough p) s

/-! ### Sending (R3) -/

/-- The decided answer of a queued transaction. -/
def Taken.response (t : Taken) : Option Response :=
  match t.stand with
  | .decided r => some r
  | _ => none

/-- The decided answers at the old end of a queue, with nothing undecided before them (R3). -/
def sendable (q : List Taken) : List Response :=
  match q with
  | [] => []
  | t :: rest =>
    match t.response with
    | some r => r :: sendable rest
    | none => []

/-- Show the responses a port sends (log entry 18). -/
def setSent (p : Port) (rs : List Response) (s : State) : State :=
  match p with
  | .a => { s with path := { s.path with sentA := rs } }
  | .b => { s with path := { s.path with sentB := rs } }

/-- The oldest decided answer is sent, with the younger decided ones directly behind it; each leaves the queue
(R2, R3). -/
def sendResponses (p : Port) (s : State) : State :=
  match sendable (queueOf s p) with
  | [] => s
  | r :: rs => setSent p (r :: rs) (setQueue p ((queueOf s p).drop (rs.length + 1)) s)

/-- RESPONSE_SEND (R3). -/
def execResponseSend (p : Port) (s : State) : Host.Outcome State Fault Refusal := onPart (sendResponses p) s

end Sys2Proof.Machine
end

