-- ==== Sys2Proof/Machine/Resets.lean ====
section
/-!
DEFINITION. The reset and power-warning pins (R6 to R8, R14, R35, R51, R78, R79, R154, R158), the settle timer and the
patrol timer (R138, R139, R166).
-/

namespace Sys2Proof.Machine

/-! ### SRST (R6, R7) -/

/-- The array read of a system read is in flight. -/
def readInFlight (s : State) (r : SystemRead) : Bool :=
  s.link.inFlight.any fun o => decide (o.purpose = .systemRead r.serial)

/-- What SRST does to a system read: withdrawn, or left in flight without an answer (R6). -/
def srstRead (r : SystemRead) (s : State) : State :=
  if readInFlight s r then
    { s with
      path :=
        { s.path with
          reads := s.path.reads.map fun x => if x.serial = r.serial then { x with answered := false } else x } }
  else withdrawRead r s

/-- What SRST does to a through-write: withdrawn before its first array operation is issued, with a request of it that
waits in the work list (log entry 10), or left running without a response (R6, R99). -/
def srstThrough (t : ThroughWrite) (s : State) : State :=
  if t.issued then orphanThrough t s else withdrawThrough t (withdrawRequests (.through t.serial) s)

/-- With retain clear, F and the working tables return to their stored values (R35, R51). -/
def srstReturn (s : State) : State :=
  if s.fence.retain then s
  else
    { s with
      fence := { s.fence with current := s.fence.stored }
      tables := { s.tables with regions := s.tables.storedRegions, classes := s.tables.storedClasses } }

/-- The range watches are disabled, and the sequence watch is DISARMED with its index at 0 (R154). -/
def srstWatches (s : State) : State :=
  { s with
    watch :=
      { s.watch with
        ranges := s.watch.ranges.map (fun r => { r with enabled := false }), index := 0, armed := false } }

/-- The work of SRST's assertion (R6, R35, R51, R154). -/
def systemReset (s : State) : State :=
  let s := s.path.reads.foldl (fun t r => srstRead r t) s
  let s := s.path.throughs.foldl (fun t w => srstThrough w t) s
  let s :=
    { s with
      path := { s.path with queueA := [], queueB := [], drainWait := false }
      buffer := { s.buffer with waiting := [] } }
  settle (srstWatches (srstReturn s))

/-- SRST_ASSERT (R6). -/
def execSrstAssert (s : State) : Host.Outcome State Fault Refusal :=
  if s.pins.srst then .next s else onPart systemReset { s with pins := { s.pins with srst := true } }

/-- The reset drain wait opens, unless the buffer holds no system entry (R7). -/
def openDrainWait (s : State) : State :=
  { s with path := { s.path with drainWait := !s.buffer.entries.isEmpty } }

/-- SRST_RELEASE (R7). -/
def execSrstRelease (s : State) : Host.Outcome State Fault Refusal :=
  if s.pins.srst then onPart openDrainWait { s with pins := { s.pins with srst := false } } else .next s

/-- The reset drain wait closes when the buffer holds no system entry (R7). -/
def closeDrainWait (s : State) : State :=
  if s.buffer.entries.isEmpty then { s with path := { s.path with drainWait := false } } else s

/-- RESET_DRAIN_WAIT_CLOSE (R7). -/
def execResetDrainWaitClose (s : State) : Host.Outcome State Fault Refusal := onPart closeDrainWait s

/-! ### PORST (R8, R158) -/

/-- PORST_ASSERT: every block takes its power-on values; the pins keep their levels (R8, R80, R99, R122, R143, R168,
R179, R185, log entry 6). -/
def execPorstAssert (s : State) : Host.Outcome State Fault Refusal :=
  .next
    (if s.pins.porst then s
     else State.powerOn { s.pins with porst := true } 0 .geometryFault [] s.pending)

/-- PORST_RELEASE: GEOM is sampled (R158). -/
def execPorstRelease (geom : BitVec 2) (s : State) : Host.Outcome State Fault Refusal :=
  .next (if s.pins.porst then State.atRelease s.pins geom s.pending else s)

/-! ### PWARN (R14, R78) -/

/-- What PWARN does to a through-write: RETRY before its first operation is issued and before a request of it joins the
work list (R14). -/
def warnThrough (t : ThroughWrite) (s : State) : State :=
  if t.issued || t.listed then s else withdrawThrough t (answerThrough t .retry s)

/-- The work of PWARN's assertion (R14). -/
def powerWarning (s : State) : State :=
  let s := s.path.throughs.foldl (fun t w => warnThrough w t) s
  settle (answerWaiting .retry s)

/-- PWARN_ASSERT (R14). -/
def execPwarnAssert (s : State) : Host.Outcome State Fault Refusal :=
  if s.pins.pwarn then .next s else onPart powerWarning { s with pins := { s.pins with pwarn := true } }

/-- PWARN_RELEASE (R78): what PWARN held back is judged from its level. -/
def execPwarnRelease (s : State) : Host.Outcome State Fault Refusal :=
  .next { s with pins := { s.pins with pwarn := false } }

/-! ### The settle timer (R166) -/

/-- The settle timer has run its 2,000 ms (R166). -/
def settleExpired (s : State) : Bool :=
  match s.metaCtl.settleTicks with
  | some n => decide (Config.settleTicks ≤ n)
  | none => false

/-- SETTLE_TIMER_EXPIRY (R166). -/
def execSettleTimerExpiry (s : State) : Host.Outcome State Fault Refusal :=
  onPart (fun s => if s.metaCtl.phase = .readReady ∧ settleExpired s then enterRepairing s else s) s

/-! ### The patrol (R138, R139) -/

/-- Change the patrol. -/
def setPatrol (f : Patrol → Patrol) (s : State) : State :=
  { s with health := { s.health with patrol := f s.health.patrol } }

/-- The line is passed over by a step: its class is EXCLUDED, or it is POISONED (R43, R139). -/
def passedOver (s : State) (line : Nat) : Bool :=
  decide ((lineClass s line).patrol = .excluded) || decide (dataState s line = .poisoned)

/-- The first line from `line` that is not passed over, looking at `fuel` lines. -/
def scanFrom (s : State) (line : Nat) : Nat → Option Nat
  | 0 => none
  | fuel + 1 => if passedOver s line then scanFrom s (line + 1) fuel else some line

/-- The pass ends (R139). -/
def endPass (s : State) : State :=
  post .patrolPass
    (setPatrol
      (fun p =>
        let p := { p with passes := (p.passes + 1) % 65536, cursor := 0 }
        match p.mode with
        | .singlePass => { p with mode := .stopped, ticks := 0, since := 0 }
        | _ => p)
      s)

/-- A step examines user lines from the cursor upward (R139). -/
def patrolStep (s : State) : State :=
  let s := setPatrol (fun p => { p with since := 0 }) s
  match scanFrom s s.health.patrol.cursor (s.fence.uNative - s.health.patrol.cursor) with
  | none => endPass s
  | some line =>
    let s := setPatrol (fun p => { p with cursor := line + 1, outstanding := some line }) s
    let s := placeOp
      { purpose := .patrolRead line, arrayLine := mappedLine s line, action := .read, first := false, issued := false } s
    if s.fence.uNative ≤ line + 1 then endPass s else s

/-- An expiry of the patrol timer: acted on as a step when nothing holds it back (R138). -/
def patrolExpiry (s : State) : State :=
  let p := s.health.patrol
  if p.mode = .stopped ∨ p.ticks < p.interval then s
  else
    let s := setPatrol (fun p => { p with ticks := 0 }) s
    if p.outstanding.isNone && decide (s.metaCtl.phase = .fullReady) && !s.pins.pwarn then patrolStep s else s

/-- PATROL_TIMER_EXPIRY (R138). -/
def execPatrolTimerExpiry (s : State) : Host.Outcome State Fault Refusal := onPart patrolExpiry s

/-! ### The passing of time (log entries 3, 25) -/

/-- 100 µs pass: the timers that run advance (R87, R138, R166); time stands still under PORST. -/
def tick (s : State) : State :=
  if s.pins.porst then s
  else
    { s with
      link := { s.link with waitTicks := if grantWait s then s.link.waitTicks + 1 else s.link.waitTicks }
      metaCtl := { s.metaCtl with settleTicks := s.metaCtl.settleTicks.map (· + 1) }
      health :=
        { s.health with
          patrol :=
            if s.health.patrol.mode = .stopped then s.health.patrol
            else
              { s.health.patrol with
                ticks := s.health.patrol.ticks + 1
                since := min 65535 (s.health.patrol.since + 1) } } }

end Sys2Proof.Machine
end

