-- ==== Sys2Proof/Machine/Loading.lean ====
section
/-!
DEFINITION. Start-up loading and formatting (R48, R159 to R165): the completions of the loading reads and of the
formatting programs.
-/

namespace Sys2Proof.Machine

/-! ### Placing loading reads and formatting programs -/

/-- Place the loading read of a metadata line (R159). -/
def placeLoad (t : MetaLine) (s : State) : State :=
  placeOp { purpose := .loadRead t, arrayLine := metaArrayLine s t, action := .read, first := false, issued := false } s

/-- Place the n-th formatting program (R164). -/
def placeFormat (n : Nat) (s : State) : State :=
  placeOp
    { purpose := .formatProgram n, arrayLine := metaArrayLine s (formatTarget n), action := .compose, first := false
      issued := false } s

/-- The start of LOADING: the internal state as R159 sets it, and the read of settings line 0. -/
def startLoading (s : State) : State :=
  placeLoad (.settings 0)
    { s with
      remap := { s.remap with table := [], dead := [], records := [], loaded := false }
      metaCtl := { s.metaCtl with repair := [] }
      tables :=
        { regions := List.replicate 16 regionDefault
          classes := List.replicate 4 classDefault
          storedRegions := List.replicate 16 regionDefault
          storedClasses := List.replicate 4 classDefault }
      fence :=
        { s.fence with current := s.fence.uNative, stored := s.fence.uNative, lockAtStart := false, retain := false } }

/-- The target of the loading read in flight. -/
def loadInFlight (s : State) : Option MetaLine :=
  inFlightFor s fun p => match p with
    | .loadRead t => some t
    | _ => none

/-! ### The header (R159) -/

/-- The header as read is valid (R159). -/
def headerValid (s : State) (ecc : Ecc) (h : HeaderImage) : Bool :=
  decide (ecc ≠ .uncorrectable) && h.marker && decide (h.geom = s.pins.geom)

/-- The stored fence as loaded: 0 or a value above U_native is taken as U_native (R22). -/
def loadedFence (s : State) (stored : Nat) : Nat :=
  if stored = 0 ∨ s.fence.uNative < stored then s.fence.uNative else stored

/-- A valid header is taken (R34, R35, R159). -/
def takeHeader (h : HeaderImage) (s : State) : State :=
  let s :=
    { s with
      fence :=
        { s.fence with
          current := loadedFence s h.stored
          stored := loadedFence s h.stored
          lockAtStart := h.lockAtStart
          retain := h.retain } }
  if h.lockAtStart ∧ s.fence.lock = .unlocked then
    { s with fence := { s.fence with lock := .locked, refusals := 0 } }
  else s

/-- The loading read of settings line 0 completes (R159). -/
def headerDone (ecc : Ecc) (h : HeaderImage) (s : State) : State :=
  match loadInFlight s with
  | some (.settings 0) =>
    let s := freePort s
    if headerValid s ecc h then placeLoad (.image 0) (takeHeader h s) else setPhase .unformatted s
  | _ => s

/-- HEADER_READ_COMPLETE (R159). -/
def execHeaderReadComplete (ecc : Ecc) (h : HeaderImage) (s : State) : Host.Outcome State Fault Refusal :=
  onPart (headerDone ecc h) s

/-! ### Image lines (R160 to R162) -/

/-- A line joins the repair list, once (R160). -/
def addRepair (t : MetaLine) (s : State) : State :=
  if s.metaCtl.repair.contains t then s
  else { s with metaCtl := { s.metaCtl with repair := s.metaCtl.repair ++ [t] } }

/-- A slot is made DEAD in the internal pool and in its internal record (R160, R161). -/
def deadSlot (slot : Nat) (s : State) : State :=
  setRecord slot .dead { s with remap := { s.remap with dead := insertNat s.remap.dead slot } }

/-- A slot is made DEAD and its image line joins the repair list (R160, R161). -/
def damageSlot (slot : Nat) (s : State) : State := addRepair (.image (slot / 4)) (deadSlot slot s)

/-- A well-formed IN_USE record makes its slot IN_USE and creates a remap entry (R160). -/
def bindSlot (slot line : Nat) (data : DataState) (origin : Origin) (generation : BitVec 8) (s : State) : State :=
  let e : RemapEntry := { slot := slot, data := data, origin := origin, generation := generation }
  setRecord slot (.inUse line data origin generation)
    { s with remap := { s.remap with table := sparseSet s.remap.table line e } }

/-- The newcomer's generation is 1 to 127 ahead of the held entry's, modulo 256 (R161). -/
def ahead (newcomer held : BitVec 8) : Bool :=
  decide (1 ≤ (newcomer - held).toNat ∧ (newcomer - held).toNat ≤ 127)

/-- A well-formed IN_USE record, resolved against an entry of its line (R160, R161). -/
def takeInUse (slot line : Nat) (data : DataState) (origin : Origin) (generation : BitVec 8) (s : State) : State :=
  match remapEntry s line with
  | none => bindSlot slot line data origin generation s
  | some held =>
    if ahead generation held.generation then damageSlot held.slot (bindSlot slot line data origin generation s)
    else damageSlot slot s

/-- The data state of an IN_USE record has a form the spec gives: a PARTIAL mask is neither empty nor full (R160). -/
def dataFormed (d : DataState) : Bool :=
  match d with
  | .partialOf m => decide (m ≠ Mask.empty ∧ m ≠ Mask.full)
  | .intact => true
  | .poisoned => true

/-- A slot record as read is taken (R160; log entry 14). -/
def takeRecord (slot : Nat) (r : RawRecord) (s : State) : State :=
  match r.state with
  | none => damageSlot slot s
  | some .free => s
  | some .dead => deadSlot slot s
  | some .inUse =>
    match r.data, r.origin with
    | some data, some origin =>
      if r.line < s.fence.uNative ∧ dataFormed data then takeInUse slot r.line data origin r.generation s
      else damageSlot slot s
    | _, _ => damageSlot slot s

/-- The record at position i of image line k is taken into slot 4k + i (R155, R160). -/
def takeNth (k : Nat) (records : List RawRecord) (i : Nat) (s : State) : State :=
  match records[i]? with
  | some r => takeRecord (4 * k + i) r s
  | none => s

/-- Slots 4k to 4k + 3 are taken from four records, in slot order (R160). -/
def takeRecords (k : Nat) (records : List RawRecord) (s : State) : State :=
  (List.range 4).foldl (fun t i => takeNth k records i t) s

/-- An image line read UNCORRECTABLE (R160). -/
def damagedImage (k : Nat) (s : State) : State :=
  let s := (List.range 4).foldl (fun t i => deadSlot (4 * k + i) t) s
  let s := addRepair (.image k) s
  writeIncident { kind := .metadataDamaged, line := none, port := none, detail := none, index := some k }
    (post .metadataDamaged s)

/-- The image is loaded: the thresholds are judged once, and the read of settings line 1 is placed (R104, R162). -/
def imageLoaded (s : State) : State :=
  let s := { s with remap := { s.remap with loaded := true } }
  let s := if freeCount s ≤ Config.lowSpares then post .sparesLow s else s
  let s := if freeCount s = 0 then post .sparesExhausted s else s
  placeLoad (.settings 1) s

/-- A loading read of an image line completes (R160, R162). -/
def imageReadDone (ecc : Ecc) (records : List RawRecord) (s : State) : State :=
  match loadInFlight s with
  | some (.image k) =>
    let s := freePort s
    let s := if ecc = .uncorrectable then damagedImage k s else takeRecords k records s
    if k < 1023 then placeLoad (.image (k + 1)) s else imageLoaded s
  | _ => s

/-- IMAGE_READ_COMPLETE (R160). -/
def execImageReadComplete (ecc : Ecc) (records : List RawRecord) (s : State) : Host.Outcome State Fault Refusal :=
  onPart (imageReadDone ecc records) s

/-! ### Settings lines 1 to 5 (R48, R162) -/

/-- A relocation threshold in its range (R41). -/
def thresholdFormed (t : Threshold) : Bool :=
  match t with
  | .off => true
  | .bits k => decide (1 ≤ k ∧ k ≤ 8)

/-- A class entry as loaded: the format default where a field is outside its range (R48). -/
def loadedClass (r : RawClass) : ClassEntry :=
  match r.mode, r.patrol, r.threshold with
  | some m, some p, some t =>
    if thresholdFormed t then { mode := m, patrol := p, threshold := t } else classDefault
  | _, _, _ => classDefault

/-- A region entry in its range (R38). -/
def regionFormed (uNative : Nat) (r : RegionEntry) : Bool :=
  decide (r.first ≤ r.last ∧ r.last < uNative ∧ r.cls ≤ 3)

/-- A region entry as loaded: the format default where it is out of range (R48). -/
def loadedRegion (uNative : Nat) (r : RegionEntry) : RegionEntry :=
  if regionFormed uNative r then r else regionDefault

/-- Lay up to four new entries over a table from an index on. -/
def layFour {α : Type} (start : Nat) (new table : List α) : List α :=
  table.mapIdx fun i x => if start ≤ i ∧ i < start + 4 then (new[i - start]?).getD x else x

/-- The entries of a readable settings line go into the stored copies and the working tables (R48). -/
def takeSettings (j : Nat) (classes : List RawClass) (regions : List RegionEntry) (s : State) : State :=
  if j = 1 then
    let new := classes.map loadedClass
    { s with
      tables :=
        { s.tables with classes := layFour 0 new s.tables.classes, storedClasses := layFour 0 new s.tables.storedClasses } }
  else
    let new := regions.map (loadedRegion s.fence.uNative)
    { s with
      tables :=
        { s.tables with
          regions := layFour (4 * (j - 2)) new s.tables.regions
          storedRegions := layFour (4 * (j - 2)) new s.tables.storedRegions } }

/-- Entry to READ_READY: the settle timer starts from zero (R166). -/
def enterReadReady (s : State) : State :=
  setPhase .readReady { s with metaCtl := { s.metaCtl with settleTicks := some 0 } }

/-- A loading read of settings lines 1 to 5 completes (R48, R162). -/
def settingsReadDone (ecc : Ecc) (classes : List RawClass) (regions : List RegionEntry) (s : State) : State :=
  match loadInFlight s with
  | some (.settings (j + 1)) =>
    let s := freePort s
    let s := if ecc = .uncorrectable then addRepair (.settings (j + 1)) s else takeSettings (j + 1) classes regions s
    if j + 1 < 5 then placeLoad (.settings (j + 2)) s else settle (enterReadReady s)
  | _ => s

/-- SETTINGS_READ_COMPLETE (R162). -/
def execSettingsReadComplete (ecc : Ecc) (classes : List RawClass) (regions : List RegionEntry) (s : State) :
    Host.Outcome State Fault Refusal :=
  onPart (settingsReadDone ecc classes regions) s

/-! ### Formatting (R164, R165) -/

/-- The formatting program in flight. -/
def formatInFlight (s : State) : Option Nat :=
  inFlightFor s fun p => match p with
    | .formatProgram n => some n
    | _ => none

/-- The header program has completed: FORMAT_ARRAY completes DONE and LOADING begins (R164). -/
def formatEnds (s : State) : State := startLoading (setPhase .loading (complete .done s))

/-- A formatting program has failed (R165). -/
def formatFails (s : State) : State := setPhase .unformatted (complete .metadataFault (setFault s))

/-- A formatting program completes (R164, R165). -/
def formatDone (ok : Bool) (s : State) : State :=
  match formatInFlight s with
  | none => s
  | some n =>
    let s := freePort s
    if !ok then formatFails s
    else if n + 1 < Config.formatPrograms then placeFormat (n + 1) s
    else formatEnds s

/-- FORMAT_PROGRAM_COMPLETE (R164). -/
def execFormatProgramComplete (ok : Bool) (s : State) : Host.Outcome State Fault Refusal := onPart (formatDone ok) s

end Sys2Proof.Machine
end

