-- ==== Sys2Proof/Machine/Completions.lean ====
section
/-!
DEFINITION. The completions of array operations outside loading and formatting (R18, R61 to R63, R109, R110, R119,
R133, R140, R157, R167).
-/

namespace Sys2Proof.Machine

/-! ### System reads (R18, R44, R126) -/

/-- The stamp of the system read in flight. -/
def readDue (s : State) : Option Nat :=
  inFlightFor s fun p => match p with
    | .systemRead n => some n
    | _ => none

/-- The bytes a readable system read returns: from the snapshot where it covers them, else from the array (R18). -/
def SystemRead.bytes (r : SystemRead) (data : LineData) : List Byte :=
  slice (overlay r.covered r.snapshot data) r.offset r.size

/-- A CORRECTED status at the class threshold current at this completion gives a relocation need (R44). -/
def correctedNeed (line : Nat) (reason : Reason) (ecc : Ecc) (s : State) : State :=
  match ecc with
  | .corrected k => if thresholdReached (lineClass s line).threshold k then need line reason s else s
  | .clean => s
  | .uncorrectable => s

/-- What the Media Health Unit makes of a readable system read (R18, R44, R126). -/
def readableReport (line : Nat) (ecc : Ecc) (s : State) : State :=
  if isCandidate s line then need line .candidateRecovered (removeCandidate line s)
  else correctedNeed line .readCorrected ecc s

/-- The ARRAY_READ of a system read completes (R18). -/
def readDone (ecc : Ecc) (data : LineData) (s : State) : State :=
  match (readDue s).bind (readOf s) with
  | none => s
  | some r =>
    let s := freePort s
    if ecc = .uncorrectable then offer r.line .read (endRead r (refuseRead r .poison s))
    else readableReport r.line ecc (endRead r (answerRead r { code := .ok, data := r.bytes data } s))

/-- SYSTEM_READ_COMPLETE (R18). -/
def execSystemReadComplete (ecc : Ecc) (data : LineData) (s : State) : Host.Outcome State Fault Refusal :=
  onPart (fun s => settle (readDone ecc data s)) s

/-! ### Drains and through-writes (R61 to R65, R73) -/

/-- The writer whose merge read is in flight. -/
def mergeDue (s : State) : Option Writer :=
  inFlightFor s fun p => match p with
    | .mergeRead w => some w
    | _ => none

/-- The bytes known after a merge: all of them on an INTACT line, and on a PARTIAL line those of either mask
(R61, R106). -/
def Course.knownAfterMerge (c : Course) : Mask :=
  match c.view with
  | .intact => Mask.full
  | .partialOf m => m ||| c.mask
  | .poisoned => c.mask

/-- A readable merge read: the drain line is formed, and its program follows (R61). -/
def merged (w : Writer) (c : Course) (data : LineData) (s : State) : State :=
  let c := { c with drainLine := overlay c.mask c.bytes data, known := c.knownAfterMerge }
  placeCourseOp (.mappedProgram w) c.mapped (.program (.bytes c.drainLine)) false (setCourse w c s)

/-- The merge-fail case: the bytes and mask go to the Remap Unit (R65); a candidate leaves its list (R61). -/
def mergeFailed (w : Writer) (c : Course) (s : State) : State :=
  joinWork (.storage w c.line (overlay c.mask c.bytes zeroLine) c.mask) (removeCandidate c.line s)

/-- A merge read completes (R61). -/
def mergeDone (ecc : Ecc) (data : LineData) (s : State) : State :=
  match mergeDue s with
  | none => s
  | some w =>
    match courseOf s w with
    | none => s
    | some c => if ecc = .uncorrectable then mergeFailed w c (freePort s) else merged w c data (freePort s)

/-- MERGE_READ_COMPLETE (R61). -/
def execMergeReadComplete (ecc : Ecc) (data : LineData) (s : State) : Host.Outcome State Fault Refusal :=
  onPart (mergeDone ecc data) s

/-- The writer whose program of the mapped line is in flight. -/
def programDue (s : State) : Option Writer :=
  inFlightFor s fun p => match p with
    | .mappedProgram w => some w
    | _ => none

/-- The writer whose program of a POISONED line's spare is in flight (R117). -/
def storageDue (s : State) : Option Writer :=
  inFlightFor s fun p => match p with
    | .storageProgram w => some w
    | _ => none

/-- Ask for a reassign with the full drain line (R63, R64). -/
def askReassign (w : Writer) (c : Course) (origin : Origin) (s : State) : State :=
  joinWork (.reassign (.writer w) c.line c.drainLine c.known origin) s

/-- A program of the mapped line completes: a verify read for a candidate, the data state, or a reassign (R62, R64). -/
def programmed (w : Writer) (c : Course) (ok : Bool) (s : State) : State :=
  if !ok then askReassign w c .programFail s
  else if isCandidate s c.line then placeCourseOp (.verifyRead w) c.mapped .read false s
  else recordOrEnd w c s

/-- A program by a drain or through-write of its mapped line, or of a POISONED line's spare, completes (R62, R117). -/
def programDone (ok : Bool) (s : State) : State :=
  match programDue s with
  | some w =>
    match courseOf s w with
    | none => s
    | some c => programmed w c ok (freePort s)
  | none => if (storageDue s).isSome then storageDone ok (freePort s) else s

/-- DRAIN_PROGRAM_COMPLETE (R62). -/
def execDrainProgramComplete (ok : Bool) (s : State) : Host.Outcome State Fault Refusal := onPart (programDone ok) s

/-- The writer whose verify read is in flight. -/
def verifyDue (s : State) : Option Writer :=
  inFlightFor s fun p => match p with
    | .verifyRead w => some w
    | _ => none

/-- A verify read completes (R63). -/
def verifyDone (ecc : Ecc) (s : State) : State :=
  match verifyDue s with
  | none => s
  | some w =>
    match courseOf s w with
    | none => s
    | some c =>
      if ecc = .clean then recordOrEnd w c (removeCandidate c.line (freePort s))
      else askReassign w c .candidateFail (freePort s)

/-- VERIFY_READ_COMPLETE (R63). -/
def execVerifyReadComplete (ecc : Ecc) (s : State) : Host.Outcome State Fault Refusal := onPart (verifyDone ecc) s

/-! ### Spare and metadata programs (R109, R110, R119, R157, R167) -/

/-- A spare program is in flight. -/
def spareDue (s : State) : Bool :=
  s.link.inFlight.any fun o => decide (o.purpose = .spareProgram)

/-- A reassign's spare program completes (R109). -/
def spareProgramDone (ok : Bool) (s : State) : State :=
  match spareDue s, s.remap.serving with
  | true, some (.spare slot) => spareDone slot ok (freePort s)
  | _, _ => s

/-- SPARE_PROGRAM_COMPLETE (R109). -/
def execSpareProgramComplete (ok : Bool) (s : State) : Host.Outcome State Fault Refusal := onPart (spareProgramDone ok) s

/-- The metadata program in flight: its line, and the requests it was composed for (R157). -/
def metaDue (s : State) : Option (MetaLine × List MetaAsker) :=
  inFlightFor s fun p => match p with
    | .metaProgram t askers => some (t, askers)
    | _ => none

/-- A metadata program completes, if it is one the label names: its outcome is delivered to every request it served
(R157, log entry 17). -/
def metaDone (named : MetaLine → List MetaAsker → Bool) (ok : Bool) (s : State) : State :=
  match metaDue s with
  | none => s
  | some (t, askers) => if named t askers then metaProgramDone t askers ok (freePort s) else s

/-- The label IMAGE_PROGRAM_COMPLETE names the programs of image lines. -/
def namesImage (t : MetaLine) (_askers : List MetaAsker) : Bool :=
  match t with
  | .image _ => true
  | .settings _ => false

/-- The label SETTINGS_PROGRAM_COMPLETE names the programs of settings lines that a command asked for. -/
def namesSettings (t : MetaLine) (askers : List MetaAsker) : Bool :=
  match t with
  | .image _ => false
  | .settings _ => askers.contains .command

/-- The label REPAIR_PROGRAM_COMPLETE names the programs that the repair list asked for. -/
def namesRepair (_t : MetaLine) (askers : List MetaAsker) : Bool := askers.contains .repair

/-- IMAGE_PROGRAM_COMPLETE (R110). -/
def execImageProgramComplete (ok : Bool) (s : State) : Host.Outcome State Fault Refusal :=
  onPart (metaDone namesImage ok) s

/-- SETTINGS_PROGRAM_COMPLETE (R26). -/
def execSettingsProgramComplete (ok : Bool) (s : State) : Host.Outcome State Fault Refusal :=
  onPart (metaDone namesSettings ok) s

/-- REPAIR_PROGRAM_COMPLETE (R167). -/
def execRepairProgramComplete (ok : Bool) (s : State) : Host.Outcome State Fault Refusal :=
  onPart (metaDone namesRepair ok) s

/-! ### Relocation source reads and patrol reads (R133, R140) -/

/-- The line whose source read is in flight. -/
def jobReadDue (s : State) : Option Nat :=
  inFlightFor s fun p => match p with
    | .jobRead line => some line
    | _ => none

/-- The relocation job of a line. -/
def jobOf (s : State) (line : Nat) : Option Job := s.health.jobs.find? fun j => j.line == line

/-- Change one job. -/
def setJob (line : Nat) (f : Job → Job) (s : State) : State :=
  { s with health := { s.health with jobs := s.health.jobs.map fun j => if j.line = line then f j else j } }

/-- The origin of a job's reassign (R133). -/
def jobOrigin (r : Reason) : Origin :=
  match r with
  | .retireCommand => .retireCommand
  | .patrolCorrected => .relocated
  | .readCorrected => .relocated
  | .candidateRecovered => .relocated

/-- A job's source read completes (R133). -/
def sourceDone (ecc : Ecc) (data : LineData) (s : State) : State :=
  match (jobReadDue s).bind (jobOf s) with
  | none => s
  | some j =>
    let s := freePort s
    if ecc = .uncorrectable then offer j.line .relocation (endJob j.line s)
    else
      joinWork (.reassign (.job j.line) j.line data j.known (jobOrigin j.reason))
        (setJob j.line (fun j => { j with staged := some data }) s)

/-- RELOCATION_SOURCE_READ_COMPLETE (R133). -/
def execRelocationSourceReadComplete (ecc : Ecc) (data : LineData) (s : State) : Host.Outcome State Fault Refusal :=
  onPart (sourceDone ecc data) s

/-- The line of the patrol read in flight. -/
def patrolDue (s : State) : Option Nat :=
  inFlightFor s fun p => match p with
    | .patrolRead line => some line
    | _ => none

/-- What is made of a patrol result (R140). -/
def patrolReport (line : Nat) (ecc : Ecc) (s : State) : State :=
  if jobInFlight s line || decide (dataState s line = .poisoned) || isCandidate s line then s
  else if ecc = .uncorrectable then offer line .patrol s
  else correctedNeed line .patrolCorrected ecc s

/-- A patrol read completes (R140). -/
def patrolDone (ecc : Ecc) (s : State) : State :=
  match patrolDue s with
  | none => s
  | some line => patrolReport line ecc (setPatrol (fun p => { p with outstanding := none }) (freePort s))

/-- PATROL_READ_COMPLETE (R140). -/
def execPatrolReadComplete (ecc : Ecc) (s : State) : Host.Outcome State Fault Refusal := onPart (patrolDone ecc) s

end Sys2Proof.Machine
end

