-- ==== Sys2Proof/Machine/Service.lean ====
section
/-!
DEFINITION. The part's own steps: selecting a drain (R59), granting waiting claims (R93), starting relocation jobs
(R131), serving the work list and the no-data queue (R106 to R117), and closing the waits of two commands (R69, R76).
-/

namespace Sys2Proof.Machine

/-! ### DRAIN_SELECT (R59, R60) -/

/-- The phase lets drains be selected (R59). -/
def Phase.drains : Phase → Bool
  | .repairing => true
  | .fullReady => true
  | _ => false

/-- The eligible entry nearest the head of the age list (R59). -/
def oldestEligible (s : State) : Option SystemEntry := s.buffer.entries.find? (eligible s)

/-- The line's PENDING entry becomes DRAINING (R59). -/
def markDraining (line : Nat) (s : State) : State :=
  { s with
    buffer :=
      { s.buffer with
        entries :=
          s.buffer.entries.map fun e =>
            if e.line = line ∧ e.state = .pending then { e with state := .draining } else e } }

/-- Select a drain: the entry becomes DRAINING with an exclusive claim, and its course begins (R59, R60). -/
def selectDrain (s : State) : State :=
  if s.buffer.drain.isSome || !s.metaCtl.phase.drains then s
  else match oldestEligible s with
    | none => s
    | some e => startCourse .drain e.line e.mask e.data (requestClaim e.line .exclusive .drain (markDraining e.line s))

/-- DRAIN_SELECT (R59). -/
def execDrainSelect (s : State) : Host.Outcome State Fault Refusal := onPart selectDrain s

/-! ### Relocation jobs (R131, R132) -/

/-- A job's claim is granted: it ends on a POISONED line, and otherwise places its source read (R132). -/
def jobGranted (line : Nat) (s : State) : State :=
  match dataState s line with
  | .poisoned => endJob line s
  | d =>
    let known := match d with
      | .partialOf m => m
      | _ => Mask.full
    placeOp
      { purpose := .jobRead line, arrayLine := mappedLine s line, action := .read, first := true, issued := false }
      (setJob line (fun j => { j with known := known }) s)

/-- The conditions of a job's start, the queue apart (R131). -/
def jobsMayStart (s : State) : Bool :=
  decide (s.metaCtl.phase = .fullReady) && !s.pins.pwarn && stagingEntryFree s

/-- The job at the head of the relocation queue starts (R131). -/
def startJob (s : State) : State :=
  match s.health.queue, jobsMayStart s with
  | q :: rest, true =>
    let j : Job := { line := q.line, reason := q.reason, known := Mask.full, staged := none }
    let granted := grantedAtOnce s q.line .exclusive
    let s := requestClaim q.line .exclusive (.job q.line)
      { s with health := { s.health with queue := rest, jobs := s.health.jobs ++ [j] } }
    if granted then jobGranted q.line s else s
  | _, _ => s

/-- RELOCATION_JOB_START (R131). -/
def execRelocationJobStart (s : State) : Host.Outcome State Fault Refusal := onPart startJob s

/-! ### The no-data queue (R107) -/

/-- The claim of the reassign with no data is granted: it leaves the queue and joins the work list (R107). -/
def noDataGranted (s : State) : State :=
  match s.remap.noData with
  | [] => s
  | q :: rest =>
    joinWork (.noData q.line q.origin) { s with remap := { s.remap with noData := rest, noDataAsked := false } }

/-- A reassign with no data is in the work list. -/
def noDataInService (s : State) : Bool :=
  s.remap.workList.any fun r => match r with
    | .noData _ _ => true
    | _ => false

/-- The request at the head of the no-data queue requests its claim, one reassign with no data at a time (R107). -/
def askNoData (s : State) : State :=
  match s.remap.noData with
  | [] => s
  | q :: _ =>
    if s.remap.noDataAsked || noDataInService s then s
    else
      let granted := grantedAtOnce s q.line .exclusive
      let s := requestClaim q.line .exclusive .noData { s with remap := { s.remap with noDataAsked := true } }
      if granted then noDataGranted s else s

/-- NO_DATA_CLAIM_REQUEST (R107). -/
def execNoDataClaimRequest (s : State) : Host.Outcome State Fault Refusal := onPart askNoData s

/-! ### CLAIM_GRANT (R93) -/

/-- The first waiting request of the line is granted if it can be, and leaves the list (R93). -/
def grantFront (line : Nat) (s : State) : Option (Claimant × State) :=
  let r := claimRecord s line
  match r.waiting with
  | [] => none
  | q :: rest =>
    if r.holders.admits q.kind then
      some (q.owner, setClaims line { holders := r.holders.add q.kind q.owner, waiting := rest } s)
    else none

/-- A grantee takes its next step (R17, R73, R93, R107, R132). -/
def granteeStep (o : Claimant) (s : State) : State :=
  match o with
  | .read n =>
    match readOf s n with
    | some r => readGranted r s
    | none => s
  | .drain => s
  | .through n =>
    match throughOf s n with
    | some t => startCourse (.through n) t.course.line t.course.mask t.course.bytes s
    | none => s
  | .job line => jobGranted line s
  | .noData => noDataGranted s

/-- Waiting requests are granted from the front while they can be, at most `fuel` of them (R93). -/
def grantWaiting (line : Nat) : Nat → State → State
  | 0, s => s
  | fuel + 1, s =>
    match grantFront line s with
    | none => s
    | some (o, t) => grantWaiting line fuel (granteeStep o t)

/-- The line's record is settled again (R93). -/
def settleClaims (line : Nat) (s : State) : State := grantWaiting line (claimRecord s line).waiting.length s

/-- CLAIM_GRANT (R93). -/
def execClaimGrant (line : Nat) (s : State) : Host.Outcome State Fault Refusal :=
  onPart (fun s => settle (settleClaims line s)) s

/-! ### The work list (R106, R108, R115, R117) -/

/-- The request at the head of the work list, when it has not begun to be served. -/
def unservedHead (s : State) : Option Request :=
  if s.remap.serving.isSome then none else s.remap.workList.head?

/-- The reassign at the head is judged (R108). -/
def serveReassign (s : State) : State :=
  match unservedHead s with
  | some (.reassign _ _ _ _ _) => judgeReassign s
  | some (.noData _ _) => judgeReassign s
  | _ => s

/-- REASSIGN_SERVE (R108). -/
def execReassignServe (s : State) : Host.Outcome State Fault Refusal := onPart (fun s => settle (serveReassign s)) s

/-- The merge-fail storage at the head is served (R117). -/
def serveMergeFail (s : State) : State :=
  match unservedHead s with
  | some (.storage _ _ _ _) => serveStorage s
  | _ => s

/-- MERGE_FAIL_STORAGE_SERVE (R117). -/
def execMergeFailStorageServe (s : State) : Host.Outcome State Fault Refusal := onPart serveMergeFail s

/-- The data state recording at the head is served (R115). -/
def serveRecording (s : State) : State :=
  match unservedHead s with
  | some (.recording _ line known) => beginRecording line known s
  | _ => s

/-- DATA_STATE_RECORDING_SERVE (R115). -/
def execDataStateRecordingServe (s : State) : Host.Outcome State Fault Refusal := onPart serveRecording s

/-! ### The waits of SET_RESERVE and DRAIN_ALL (R69, R76) -/

/-- The entries in use fit a reserve (R76). -/
def fitsReserve (s : State) (n : Nat) : Bool :=
  decide (systemInUse s ≤ Config.bufferEntries - n) && decide (stagingInUse s ≤ n)

/-- A reserve takes effect, and SET_RESERVE completes (R76). -/
def takeReserve (n : Nat) (s : State) : State := complete .done { s with buffer := { s.buffer with reserve := n } }

/-- The reserve wait closes when the entries in use fit (R76). -/
def closeReserveWait (s : State) : State :=
  match reserveWait s with
  | none => s
  | some n => if fitsReserve s n then takeReserve n s else s

/-- RESERVE_WAIT_CLOSE (R76). -/
def execReserveWaitClose (s : State) : Host.Outcome State Fault Refusal := onPart closeReserveWait s

/-- DRAIN_ALL ends with its two counts (R69, R176). -/
def endDrainAll (r : ResultCode) (taken discarded : Nat) (s : State) : State :=
  completeWith r [word taken, word discarded] s

/-- The drain-all target set is empty (R69). -/
def targetsGone (s : State) : Bool := s.buffer.entries.all fun e => !e.target

/-- DRAIN_ALL completes when its target set is empty (R69). -/
def closeDrainAll (s : State) : State :=
  match s.mgmt.busy with
  | some (.drainAll taken discarded) => if targetsGone s then endDrainAll .done taken discarded s else s
  | _ => s

/-- DRAIN_ALL_COMPLETE (R69). -/
def execDrainAllComplete (s : State) : Host.Outcome State Fault Refusal := onPart closeDrainAll s

end Sys2Proof.Machine
end

