-- ==== Sys2Proof/Machine/Commands.lean ====
section
/-!
DEFINITION. The command codes of the Command Engine (R173 to R176), each judged and carried out under its own rule.
Every meaning takes its code by `takeCommand`: busy makes it an overrun, and PORST holds it off.
-/

namespace Sys2Proof.Machine

/-! ### Shared tests -/

/-- The map lock's refusal of a map-altering command (R30). -/
def lockRefusal (s : State) : Option ResultCode :=
  match s.fence.lock with
  | .unlocked => none
  | .locked => some .refusedLocked
  | .expired => some .refusedExpired
  | .frozen => some .refusedFrozen

/-- A map-altering command outside the phases its rule names: judged against the map lock (R30). -/
def underLock (carry : State → State) (s : State) : State :=
  if s.metaCtl.phase.starting then complete .notReady s
  else match lockRefusal s with
    | some r => complete r s
    | none => carry s

/-- A command that only GEOMETRY_FAULT makes NOT_READY. -/
def outsideGeometryFault (carry : State → State) (s : State) : State :=
  if s.metaCtl.phase = .geometryFault then complete .notReady s else carry s

/-- A command that is NOT_READY in the four phases before service. -/
def inService (carry : State → State) (s : State) : State :=
  if s.metaCtl.phase.starting then complete .notReady s else carry s

/-- The command stays in progress (R173). -/
def setBusy (b : InProgress) (s : State) : State := { s with mgmt := { s.mgmt with busy := some b } }

/-- The command waits for a program of settings line 0 (R26), which ends READ_READY (R166). -/
def storeHeader (s : State) : State := settle (requestMeta (.settings 0) .command (setBusy .header s))

/-- "Also at start", the retain parameter: bit 0 of PARAM0 (R175). -/
def flagParam (s : State) : Bool := (param s 0).getLsbD 0

/-! ### The fence and the map lock (chapter 2) -/

/-- The three spare counts: all 0 before the image is loaded (R37). -/
def spareCounts (s : State) : Nat × Nat × Nat :=
  if s.remap.loaded then (freeCount s, s.remap.table.length, s.remap.dead.length) else (0, 0, 0)

/-- The data of READ_LIMITS (R37, R176). -/
def limitsData (s : State) : List Word :=
  let (free, inUse, dead) := spareCounts s
  [word s.fence.uNative, word s.fence.current, word s.fence.stored, word free, word inUse, word dead,
    word s.fence.refusals ||| (flagBit s.fence.lockAtStart <<< 8) ||| (flagBit s.fence.retain <<< 9)]

/-- READ_LIMITS (R37). -/
def execReadLimits (s : State) : Host.Outcome State Fault Refusal :=
  .next (takeCommand 0x01#8 (outsideGeometryFault fun s => completeWith .done (limitsData s) s) s)

/-- SET_FENCE past the phase and the lock: parameter, metadata fault, and the change (R24, R25, R27). -/
def setFence (s : State) : State :=
  let v := paramNat s 0
  if v = 0 ∨ s.fence.uNative < v ∨ 1 < paramNat s 1 then complete .badParameter s
  else if paramNat s 1 = 0 then complete .done { s with fence := { s.fence with current := v } }
  else if s.remap.fault then complete .metadataFault s
  else storeHeader { s with fence := { s.fence with current := v, stored := v } }

/-- SET_FENCE (R24). -/
def execSetFence (s : State) : Host.Outcome State Fault Refusal :=
  .next (takeCommand 0x02#8 (underLock setFence) s)

/-- The phases in which the lock commands are NOT_READY (R31, R32). -/
def lockNotReady (s : State) : Bool :=
  match s.metaCtl.phase with
  | .geometryFault | .loading => true
  | .unformatted | .formatting => flagParam s
  | .readReady | .repairing | .fullReady => false

/-- "Also at start" of FENCE_LOCK and FENCE_UNLOCK, once the lock state is settled (R31, R32). -/
def storeLockAtStart (value : Bool) (s : State) : State :=
  if !flagParam s then complete .done s
  else if s.remap.fault then complete .metadataFault s
  else storeHeader { s with fence := { s.fence with lockAtStart := value } }

/-- Change the map lock. -/
def setLock (l : LockState) (s : State) : State := { s with fence := { s.fence with lock := l } }

/-- FENCE_LOCK by lock state (R31). -/
def fenceLock (s : State) : State :=
  if lockNotReady s then complete .notReady s
  else match s.fence.lock with
    | .frozen => complete .refusedFrozen s
    | .unlocked => storeLockAtStart true (setLock .locked s)
    | .locked => storeLockAtStart true s
    | .expired => storeLockAtStart true s

/-- FENCE_LOCK (R31). -/
def execFenceLock (s : State) : Host.Outcome State Fault Refusal :=
  .next (takeCommand 0x03#8 fenceLock s)

/-- An unlock attempt refused because of MAINT_EN is counted, and the fifth makes the lock EXPIRED (R32). -/
def countRefusal (s : State) : State :=
  let s := { s with fence := { s.fence with refusals := s.fence.refusals + 1 } }
  let s := if Config.unlockLimit ≤ s.fence.refusals then post .lockExpired (setLock .expired s) else s
  complete .refusedLocked s

/-- FENCE_UNLOCK by lock state (R32). -/
def fenceUnlock (s : State) : State :=
  if lockNotReady s then complete .notReady s
  else match s.fence.lock with
    | .frozen => complete .refusedFrozen s
    | .expired => complete .refusedExpired s
    | .locked =>
      if s.pins.maintEn then
        storeLockAtStart false { s with fence := { s.fence with lock := .unlocked, refusals := 0 } }
      else countRefusal s
    | .unlocked => storeLockAtStart false s

/-- FENCE_UNLOCK; MAINT_EN is sampled when the command is taken (R32, log entry 15). -/
def execFenceUnlock (maintEn : Bool) (s : State) : Host.Outcome State Fault Refusal :=
  .next (takeCommand 0x04#8 (fun s => fenceUnlock { s with pins := { s.pins with maintEn := maintEn } }) s)

/-- FENCE_FREEZE by phase (R33). -/
def fenceFreeze (s : State) : State :=
  match s.metaCtl.phase with
  | .geometryFault | .loading => complete .notReady s
  | _ => complete .done (setLock .frozen s)

/-- FENCE_FREEZE (R33). -/
def execFenceFreeze (s : State) : Host.Outcome State Fault Refusal := .next (takeCommand 0x05#8 fenceFreeze s)

/-! ### The tables (chapter 3) -/

/-- The region entry that PARAM1 to PARAM3 carry (R175). -/
def regionParam (s : State) : RegionEntry :=
  let w := param s 3
  { enabled := w.getLsbD 0, first := paramNat s 1, last := paramNat s 2, cls := field w 8 8
    aRead := w.getLsbD 16, aWrite := w.getLsbD 17, bRead := w.getLsbD 18, bWrite := w.getLsbD 19 }

/-- LOAD_REGION past the phase and the lock (R45). -/
def loadRegion (s : State) : State :=
  if 15 < paramNat s 0 ∨ !regionFormed s.fence.uNative (regionParam s) then complete .badParameter s
  else complete .done { s with tables := { s.tables with regions := s.tables.regions.set (paramNat s 0) (regionParam s) } }

/-- LOAD_REGION (R45). -/
def execLoadRegion (s : State) : Host.Outcome State Fault Refusal := .next (takeCommand 0x06#8 (underLock loadRegion) s)

/-- The class entry that PARAM1 to PARAM3 carry, if each field is in its range (R46, R175). -/
def classParam (s : State) : Option ClassEntry :=
  match writeModeOf (paramNat s 1), patrolFieldOf (paramNat s 2), thresholdOf (paramNat s 3) with
  | some m, some p, some t => some { mode := m, patrol := p, threshold := t }
  | _, _, _ => none

/-- LOAD_CLASS past the phase and the lock (R46). -/
def loadClass (s : State) : State :=
  match classParam s with
  | none => complete .badParameter s
  | some c =>
    if 3 < paramNat s 0 then complete .badParameter s
    else complete .done { s with tables := { s.tables with classes := s.tables.classes.set (paramNat s 0) c } }

/-- LOAD_CLASS (R46). -/
def execLoadClass (s : State) : Host.Outcome State Fault Refusal := .next (takeCommand 0x07#8 (underLock loadClass) s)

/-- SAVE_SETTINGS past the phase and the lock: the stored copies, the retain flag, and the first of its six programs
(R49), which ends READ_READY (R166). -/
def saveSettings (s : State) : State :=
  if s.remap.fault then complete .metadataFault s
  else
    settle
      (requestMeta (.settings 1) .command
        (setBusy (.save [2, 3, 4, 5, 0])
          { s with
            tables := { s.tables with storedRegions := s.tables.regions, storedClasses := s.tables.classes }
            fence := { s.fence with retain := flagParam s } }))

/-- SAVE_SETTINGS (R49). -/
def execSaveSettings (s : State) : Host.Outcome State Fault Refusal :=
  .next (takeCommand 0x08#8 (underLock saveSettings) s)

/-! ### The watches (chapter 8) -/

/-- The range watch entry that PARAM1 to PARAM4 carry, if each field is in its range; its hit flag is clear, also where
the new entry is disabled (R148, R175, log entry 32). -/
def rangeParam (s : State) : Option RangeWatch :=
  let w := param s 3
  match kindsOf (field w 4 2), portsOf (field w 8 2), actionOf (field w 12 2) with
  | some k, some p, some a =>
    if paramNat s 1 ≤ paramNat s 2 ∧ paramNat s 2 < 64 * s.fence.uNative ∧ paramNat s 4 ≤ 255 then
      some
        { enabled := w.getLsbD 0, first := paramNat s 1, last := paramNat s 2, kinds := k, ports := p, action := a
          tag := (param s 4).setWidth 8, hit := false }
    else none
  | _, _, _ => none

/-- LOAD_RANGE outside GEOMETRY_FAULT (R148). -/
def loadRange (s : State) : State :=
  match rangeParam s with
  | none => complete .badParameter s
  | some r =>
    if 7 < paramNat s 0 then complete .badParameter s
    else complete .done { s with watch := { s.watch with ranges := s.watch.ranges.set (paramNat s 0) r } }

/-- LOAD_RANGE (R148). -/
def execLoadRange (s : State) : Host.Outcome State Fault Refusal :=
  .next (takeCommand 0x09#8 (outsideGeometryFault loadRange) s)

/-- The target that PARAM1 to PARAM3 carry, if each field is in its range (R152, R175). -/
def targetParam (s : State) : Option Target :=
  match accessOf (paramNat s 2) with
  | none => none
  | some k =>
    if paramNat s 1 < 64 * s.fence.uNative ∧ paramNat s 3 ≤ 255 then
      some { addr := paramNat s 1, kind := k, tag := (param s 3).setWidth 8 }
    else none

/-- LOAD_TARGET outside GEOMETRY_FAULT (R152). -/
def loadTarget (s : State) : State :=
  match targetParam s with
  | none => complete .badParameter s
  | some t =>
    if 15 < paramNat s 0 then complete .badParameter s
    else complete .done { s with watch := { s.watch with targets := s.watch.targets.set (paramNat s 0) t } }

/-- LOAD_TARGET (R152). -/
def execLoadTarget (s : State) : Host.Outcome State Fault Refusal :=
  .next (takeCommand 0x0A#8 (outsideGeometryFault loadTarget) s)

/-- SEQUENCE_SET outside GEOMETRY_FAULT (R153). -/
def sequenceSet (s : State) : State :=
  if paramNat s 0 = 0 ∨ 16 < paramNat s 0 ∨ 1 < paramNat s 1 then complete .badParameter s
  else
    complete .done
      { s with watch := { s.watch with count := paramNat s 0, index := 0, armed := decide (paramNat s 1 = 1) } }

/-- SEQUENCE_SET (R153). -/
def execSequenceSet (s : State) : Host.Outcome State Fault Refusal :=
  .next (takeCommand 0x0B#8 (outsideGeometryFault sequenceSet) s)

/-- SEQUENCE_ARM outside GEOMETRY_FAULT (R153). -/
def sequenceArm (s : State) : State := complete .done { s with watch := { s.watch with index := 0, armed := true } }

/-- SEQUENCE_ARM (R153). -/
def execSequenceArm (s : State) : Host.Outcome State Fault Refusal :=
  .next (takeCommand 0x0C#8 (outsideGeometryFault sequenceArm) s)

/-- SEQUENCE_DISARM outside GEOMETRY_FAULT (R153). -/
def sequenceDisarm (s : State) : State := complete .done { s with watch := { s.watch with armed := false } }

/-- SEQUENCE_DISARM (R153). -/
def execSequenceDisarm (s : State) : Host.Outcome State Fault Refusal :=
  .next (takeCommand 0x0D#8 (outsideGeometryFault sequenceDisarm) s)

/-! ### The Posting Buffer (chapter 4) -/

/-- DRAIN_ALL outside GEOMETRY_FAULT: the target set, and DONE at once when it is empty (R69). -/
def drainAll (s : State) : State :=
  if s.buffer.entries.isEmpty then endDrainAll .done 0 0 s
  else
    setBusy (.drainAll s.buffer.entries.length 0)
      { s with buffer := { s.buffer with entries := s.buffer.entries.map fun e => { e with target := true } } }

/-- DRAIN_ALL (R69). -/
def execDrainAll (s : State) : Host.Outcome State Fault Refusal :=
  .next (takeCommand 0x0E#8 (outsideGeometryFault drainAll) s)

/-- The values a staging reserve can have (R52). -/
def isReserve (n : Nat) : Bool := n == 0 || n == 1 || n == 2 || n == 4

/-- SET_RESERVE outside GEOMETRY_FAULT (R76). -/
def setReserve (s : State) : State :=
  let n := paramNat s 0
  if !isReserve n then complete .badParameter s
  else if n = s.buffer.reserve ∨ fitsReserve s n then takeReserve n s
  else setBusy (.reserve n) s

/-- SET_RESERVE (R76). -/
def execSetReserve (s : State) : Host.Outcome State Fault Refusal :=
  .next (takeCommand 0x0F#8 (outsideGeometryFault setReserve) s)

/-! ### Lines (chapters 6 and 7) -/

/-- RETIRE_LINE of a candidate (R136). -/
def retireCandidate (line : Nat) (s : State) : State :=
  if !noDataPresent s line ∧ Config.noDataDepth ≤ s.remap.noData.length then complete .queueFull s
  else complete .done (requestNoData line .retireCommand (removeCandidate line s))

/-- A queued job's reason becomes RETIRE_COMMAND (R136). -/
def retireQueued (line : Nat) (s : State) : State :=
  { s with
    health :=
      { s.health with
        queue := s.health.queue.map fun j => if j.line = line then { j with reason := .retireCommand } else j } }

/-- RETIRE_LINE in FULL_READY, for a user line of the array: the first case that applies (R136). -/
def retireLine (line : Nat) (s : State) : State :=
  if isCandidate s line then retireCandidate line s
  else if noDataPresent s line then complete .done s
  else if dataState s line = .poisoned then complete .done s
  else if jobInFlight s line then complete .done s
  else if jobQueued s line then complete .done (retireQueued line s)
  else if Config.relocationDepth ≤ s.health.queue.length then complete .queueFull s
  else
    complete .done
      { s with health := { s.health with queue := s.health.queue ++ [{ line := line, reason := .retireCommand }] } }

/-- RETIRE_LINE, judged (R136). -/
def retireJudged (s : State) : State :=
  if s.metaCtl.phase ≠ .fullReady then complete .notReady s
  else if s.fence.uNative ≤ paramNat s 0 then complete .badParameter s
  else retireLine (paramNat s 0) s

/-- RETIRE_LINE (R136). -/
def execRetireLine (s : State) : Host.Outcome State Fault Refusal := .next (takeCommand 0x10#8 retireJudged s)

/-- The data of a remap entry: slot, user line, fields, valid mask in two registers (offsets 63 to 32 first), pool
state (R172, R176). -/
def entryData (line : Nat) (e : RemapEntry) : List Word :=
  let m := validMaskOf e.data
  [word e.slot, word line,
    word (dataStateCode e.data) ||| (word (originCode e.origin) <<< 8) ||| (e.generation.setWidth 32 <<< 16),
    (m >>> 32).setWidth 32, m.setWidth 32, word (poolStateCode .inUse)]

/-- READ_REMAP in service (R120). -/
def readRemap (s : State) : State :=
  let line := paramNat s 0
  if s.fence.uNative ≤ line then complete .badParameter s
  else match remapEntry s line with
    | some e => completeWith .done (entryData line e) s
    | none => complete .notFound s

/-- READ_REMAP (R120). -/
def execReadRemap (s : State) : Host.Outcome State Fault Refusal := .next (takeCommand 0x11#8 (inService readRemap) s)

/-- The data of a slot: its entry's, or its pool state alone (R121, R176). -/
def slotData (s : State) (slot : Nat) : List Word :=
  match poolState s slot, entryOfSlot s slot with
  | .inUse, some (line, e) => entryData line e
  | p, _ => [word slot, 0#32, 0#32, 0#32, 0#32, word (poolStateCode p)]

/-- READ_SLOT in service (R121). -/
def readSlot (s : State) : State :=
  if 4095 < paramNat s 0 then complete .badParameter s
  else completeWith .done (slotData s (paramNat s 0)) s

/-- READ_SLOT (R121). -/
def execReadSlot (s : State) : Host.Outcome State Fault Refusal := .next (takeCommand 0x12#8 (inService readSlot) s)

/-- READ_CANDIDATE outside GEOMETRY_FAULT (R128). -/
def readCandidate (s : State) : State :=
  let n := word s.health.candidates.length
  match s.health.candidates[paramNat s 0]? with
  | some c => completeWith .done [word c.line, word c.source.code, n] s
  | none => completeWith .notFound [0#32, 0#32, n] s

/-- READ_CANDIDATE (R128). -/
def execReadCandidate (s : State) : Host.Outcome State Fault Refusal :=
  .next (takeCommand 0x13#8 (outsideGeometryFault readCandidate) s)

/-! ### The patrol (section 7.5) -/

/-- PATROL_START in service (R137). -/
def patrolStart (s : State) : State :=
  match patrolModeOf (paramNat s 0) with
  | none => complete .badParameter s
  | some m =>
    if paramNat s 1 = 0 ∨ 65535 < paramNat s 1 then complete .badParameter s
    else
      complete .done
        (setPatrol (fun p => { p with mode := m, interval := paramNat s 1, cursor := 0, since := 0, ticks := 0 }) s)

/-- PATROL_START (R137). -/
def execPatrolStart (s : State) : Host.Outcome State Fault Refusal :=
  .next (takeCommand 0x14#8 (inService patrolStart) s)

/-- PATROL_STOP outside GEOMETRY_FAULT (R141). -/
def patrolStop (s : State) : State :=
  complete .done (setPatrol (fun p => { p with mode := .stopped, ticks := 0, since := 0 }) s)

/-- PATROL_STOP (R141). -/
def execPatrolStop (s : State) : Host.Outcome State Fault Refusal :=
  .next (takeCommand 0x15#8 (outsideGeometryFault patrolStop) s)

/-- The data of PATROL_STATUS (R142, R176). -/
def patrolData (p : Patrol) : List Word :=
  [word p.mode.code, word p.cursor, word p.passes, word p.interval, word p.since, flagBit p.outstanding.isSome]

/-- PATROL_STATUS outside GEOMETRY_FAULT (R142). -/
def patrolStatus (s : State) : State := completeWith .done (patrolData s.health.patrol) s

/-- PATROL_STATUS (R142). -/
def execPatrolStatus (s : State) : Host.Outcome State Fault Refusal :=
  .next (takeCommand 0x16#8 (outsideGeometryFault patrolStatus) s)

/-! ### The array link and formatting (R88, R164) -/

/-- SET_GRANT_LIMIT outside GEOMETRY_FAULT: the limit in force changes, and may expire at once (R88). -/
def setGrantLimit (s : State) : State :=
  if 65535 < paramNat s 0 then complete .badParameter s
  else
    let s := complete .done { s with link := { s.link with limit := paramNat s 0 } }
    if grantExpired s then settle (expire s) else s

/-- SET_GRANT_LIMIT (R88). -/
def execSetGrantLimit (s : State) : Host.Outcome State Fault Refusal :=
  .next (takeCommand 0x17#8 (outsideGeometryFault setGrantLimit) s)

/-- FORMAT_ARRAY taken: every slot record FREE, the phase FORMATTING, the first program placed (R164). -/
def startFormat (s : State) : State :=
  placeFormat 0
    (setPhase .formatting
      (setBusy .format { s with remap := { s.remap with table := [], dead := [], records := [] } }))

/-- FORMAT_ARRAY, judged (R164). -/
def formatArray (s : State) : State :=
  if s.metaCtl.phase ≠ .unformatted then complete .notReady s
  else match lockRefusal s with
    | some r => complete r s
    | none => if s.remap.fault then complete .metadataFault s else startFormat s

/-- FORMAT_ARRAY (R164). -/
def execFormatArray (s : State) : Host.Outcome State Fault Refusal := .next (takeCommand 0x18#8 formatArray s)

/-! ### CANCEL and the codes that name no command (R173, R174) -/

/-- The drain-all target set is emptied (R70). -/
def clearTargets (s : State) : State :=
  { s with buffer := { s.buffer with entries := s.buffer.entries.map fun e => { e with target := false } } }

/-- CANCEL written while busy: it ends a DRAIN_ALL or a reserve wait, and has no effect on other commands (R174). -/
def cancelBusy (b : InProgress) (s : State) : State :=
  match b with
  | .drainAll taken discarded => endDrainAll .cancelled taken discarded (clearTargets s)
  | .reserve _ => complete .cancelled s
  | .header => s
  | .save _ => s
  | .format => s

/-- CANCEL taken while idle (R174). -/
def cancelIdle (s : State) : State := outsideGeometryFault (complete .done) s

/-- CANCEL (R174). -/
def execCancel (s : State) : Host.Outcome State Fault Refusal :=
  match s.mgmt.busy with
  | some b => onPart (cancelBusy b) s
  | none => .next (takeCommand 0x19#8 cancelIdle s)

/-- UNKNOWN_COMMAND (R173). -/
def execUnknownCommand (code : BitVec 8) (s : State) : Host.Outcome State Fault Refusal :=
  .next (if namesCommand code then s else takeCommand code (complete .unknownCommand) s)

/-- COMMAND_WRITE_WHILE_BUSY: ignored, with COMMAND_OVERRUN (R173). -/
def execCommandWriteWhileBusy (code : BitVec 8) (s : State) : Host.Outcome State Fault Refusal :=
  onPart (fun s => if s.mgmt.busy.isSome ∧ code ≠ 0x19#8 then post .commandOverrun s else s) s

end Sys2Proof.Machine
end

