-- ==== Sys2Proof/Machine/Registers.lean ====
section
/-!
DEFINITION. The register window: the write frames to the event, incident, watch and parameter registers (R171, R177,
R178, R181, R182, R184, R147), and what a read frame and the status byte show (R169 to R172, R176, R178).
-/

namespace Sys2Proof.Machine

/-! ### Write frames -/

/-- Write a group's flags register (R177, R181). -/
def writeFlags (g : Group) (v : Word) (s : State) : State :=
  { s with events := s.events.setGroup g ((s.events.group g).writeFlags v) }

/-- FLAGS_WRITE (R181). -/
def execFlagsWrite (g : Group) (v : Word) (s : State) : Host.Outcome State Fault Refusal := onPart (writeFlags g v) s

/-- Write a group's enables register (R177, R181). -/
def writeEnables (g : Group) (v : Word) (s : State) : State :=
  { s with events := s.events.setGroup g ((s.events.group g).writeEnables g v) }

/-- ENABLES_WRITE (R181). -/
def execEnablesWrite (g : Group) (v : Word) (s : State) : Host.Outcome State Fault Refusal :=
  onPart (writeEnables g v) s

/-- Write GROUP_ENABLE (R171, R182). -/
def writeGroupEnable (v : Word) (s : State) : State :=
  { s with events := { s.events with groupEnable := v &&& groupEnableBits } }

/-- GROUP_ENABLE_WRITE (R182). -/
def execGroupEnableWrite (v : Word) (s : State) : Host.Outcome State Fault Refusal := onPart (writeGroupEnable v) s

/-- Pop the oldest incident record into INC0 to INC3 (R178, R184). -/
def popIncident (s : State) : State := { s with events := s.events.pop }

/-- INCIDENT_POP: a write of any value (R171, R184). -/
def execIncidentPop (_v : Word) (s : State) : Host.Outcome State Fault Refusal := onPart popIncident s

/-- Write WATCH_HITS: a 1 clears the hit flag of its entry (R147). -/
def clearHits (v : Word) (s : State) : State :=
  { s with
    watch :=
      { s.watch with
        ranges := s.watch.ranges.mapIdx fun i r => if v.getLsbD i then { r with hit := false } else r } }

/-- WATCH_HITS_WRITE (R147). -/
def execWatchHitsWrite (v : Word) (s : State) : Host.Outcome State Fault Refusal := onPart (clearHits v) s

/-- Write a register that has no row of its own: PARAM0 to PARAM7 take the value, and every other index is read-only
or absent (R171). -/
def writeRegister (index : BitVec 7) (v : Word) (s : State) : State :=
  if 0x04 ≤ index.toNat ∧ index.toNat ≤ 0x0B then
    { s with mgmt := { s.mgmt with params := s.mgmt.params.set (index.toNat - 0x04) v } }
  else s

/-- REGISTER_WRITE (R171). -/
def execRegisterWrite (index : BitVec 7) (v : Word) (s : State) : Host.Outcome State Fault Refusal :=
  onPart (writeRegister index v) s

/-! ### What software reads -/

/-- IDENT: family 0x4120, revision 0x01, the GEOM code (R172). -/
def identRegister (s : State) : Word := 0x41200100#32 ||| s.pins.geom.setWidth 32

/-- STATUS (R172). -/
def statusRegister (s : State) : Word :=
  (flagBit s.mgmt.busy.isSome <<< 31) ||| (word s.metaCtl.phase.code <<< 28) ||| (word (serviceState s).code <<< 26)
    ||| (word (linkState s).code <<< 23) ||| (word s.fence.lock.code <<< 21) ||| (flagBit (postingSuspended s) <<< 20)
    ||| (flagBit s.remap.fault <<< 19)

/-- INC0 of a record: kind, port, and the presence bits (R178). -/
def inc0 (i : Incident) : Word :=
  word i.kind.code ||| (word ((i.port.map portCode).getD 0) <<< 8) ||| (flagBit i.line.isSome <<< 16)
    ||| (flagBit i.detail.isSome <<< 17) ||| (flagBit i.index.isSome <<< 18)

/-- INC0 to INC3 of the record last popped, or all zeros (R178). -/
def incidentRegister (i : Option Incident) (n : Nat) : Word :=
  match i, n with
  | none, _ => 0#32
  | some i, 0 => inc0 i
  | some i, 1 => word (i.line.getD 0)
  | some i, 2 => (i.detail.getD 0#8).setWidth 32
  | some i, 3 => word (i.index.getD 0)
  | some _, _ => 0#32

/-- WATCH_HITS: entry e's hit flag in bit e (R178). -/
def hitsRegister (s : State) : Word :=
  (List.range 8).foldl
    (fun w i => w ||| (flagBit (s.watch.ranges.getD i RangeWatch.cleared).hit <<< i)) 0#32

/-- The value a read frame captures (R169, R171). -/
def readRegister (s : State) (index : BitVec 7) : Word :=
  match index.toNat with
  | 0x00 => identRegister s
  | 0x01 => statusRegister s
  | 0x02 => s.mgmt.command.setWidth 32
  | 0x03 => s.mgmt.result.setWidth 32
  | 0x04 => s.mgmt.params.getD 0 0#32
  | 0x05 => s.mgmt.params.getD 1 0#32
  | 0x06 => s.mgmt.params.getD 2 0#32
  | 0x07 => s.mgmt.params.getD 3 0#32
  | 0x08 => s.mgmt.params.getD 4 0#32
  | 0x09 => s.mgmt.params.getD 5 0#32
  | 0x0A => s.mgmt.params.getD 6 0#32
  | 0x0B => s.mgmt.params.getD 7 0#32
  | 0x0C => s.mgmt.rdata.getD 0 0#32
  | 0x0D => s.mgmt.rdata.getD 1 0#32
  | 0x0E => s.mgmt.rdata.getD 2 0#32
  | 0x0F => s.mgmt.rdata.getD 3 0#32
  | 0x10 => s.mgmt.rdata.getD 4 0#32
  | 0x11 => s.mgmt.rdata.getD 5 0#32
  | 0x12 => s.mgmt.rdata.getD 6 0#32
  | 0x13 => s.mgmt.rdata.getD 7 0#32
  | 0x14 => s.events.pendingRegister
  | 0x15 => s.events.groupEnable
  | 0x16 => s.events.access.flags
  | 0x17 => s.events.access.enables
  | 0x18 => s.events.media.flags
  | 0x19 => s.events.media.enables
  | 0x1A => s.events.array.flags
  | 0x1B => s.events.array.enables
  | 0x1C => s.events.service.flags
  | 0x1D => s.events.service.enables
  | 0x1E => word s.events.incidents.length
  | 0x20 => incidentRegister s.events.popped 0
  | 0x21 => incidentRegister s.events.popped 1
  | 0x22 => incidentRegister s.events.popped 2
  | 0x23 => incidentRegister s.events.popped 3
  | 0x24 => hitsRegister s
  | _ => 0#32

/-- What MISO carries during bytes 1 to 4 of a read frame: 0 while PORST is asserted (R169). -/
def readFrame (s : State) (index : BitVec 7) : Word := if s.pins.porst then 0#32 else readRegister s index

/-- The status byte that MISO carries during byte 0 of every frame: 0 while PORST is asserted (R169, R170). -/
def statusByte (s : State) : Byte :=
  if s.pins.porst then 0#8
  else
    ((flagBit s.mgmt.busy.isSome <<< 7) ||| (flagBit (alert s) <<< 6) ||| (word (serviceState s).code <<< 4)
      ||| word s.metaCtl.phase.code).setWidth 8

/-- What MISO carries while byte `n` of a frame is shifted, 0 being the first (R169, R170). `b0` is the frame's byte 0;
`selected`, `captured` and `now` are the part at the assertion of CS, at the end of byte 0 and at this byte. Of bytes 1 to
4 of a write frame the spec says nothing: `none` (log entry 22). Of a frame that PORST crosses the spec does not say what
follows the release: what was captured is shown, which is 0 under PORST (log entry 34). -/
def misoByte (selected captured now : State) (b0 : Byte) (n : Nat) : Option Byte :=
  if now.pins.porst then some 0#8
  else match n with
    | 0 => some (statusByte selected)
    | 1 | 2 | 3 | 4 =>
      if b0.getLsbD 7 then none
      else some ((readFrame captured (b0.setWidth 7)).extractLsb' (32 - 8 * n) 8)
    | _ => some 0#8

end Sys2Proof.Machine
end

