-- ==== Sys2Proof/Machine/Dispatch.lean ====
section
/-!
DEFINITION. The dispatch: one direct call of a meaning for each command.
-/

namespace Sys2Proof.Machine

/-- The effect of a command on everything but the queue. -/
def exec (i : Instr) (s : State) : Host.Outcome State Fault Refusal :=
  match i with
  | .transactionTake port tx => Sys2Proof.Machine.execTransactionTake port tx s
  | .intake port => Sys2Proof.Machine.execIntake port s
  | .responseSend port => Sys2Proof.Machine.execResponseSend port s
  | .srstAssert => Sys2Proof.Machine.execSrstAssert s
  | .srstRelease => Sys2Proof.Machine.execSrstRelease s
  | .resetDrainWaitClose => Sys2Proof.Machine.execResetDrainWaitClose s
  | .porstAssert => Sys2Proof.Machine.execPorstAssert s
  | .porstRelease geom => Sys2Proof.Machine.execPorstRelease geom s
  | .pwarnAssert => Sys2Proof.Machine.execPwarnAssert s
  | .pwarnRelease => Sys2Proof.Machine.execPwarnRelease s
  | .agntAssert => Sys2Proof.Machine.execAgntAssert s
  | .agntWithdraw => Sys2Proof.Machine.execAgntWithdraw s
  | .grantWaitExpiry => Sys2Proof.Machine.execGrantWaitExpiry s
  | .settleTimerExpiry => Sys2Proof.Machine.execSettleTimerExpiry s
  | .patrolTimerExpiry => Sys2Proof.Machine.execPatrolTimerExpiry s
  | .arrayIssue => Sys2Proof.Machine.execArrayIssue s
  | .systemReadComplete ecc data => Sys2Proof.Machine.execSystemReadComplete ecc data s
  | .mergeReadComplete ecc data => Sys2Proof.Machine.execMergeReadComplete ecc data s
  | .drainProgramComplete ok => Sys2Proof.Machine.execDrainProgramComplete ok s
  | .verifyReadComplete ecc => Sys2Proof.Machine.execVerifyReadComplete ecc s
  | .spareProgramComplete ok => Sys2Proof.Machine.execSpareProgramComplete ok s
  | .imageProgramComplete ok => Sys2Proof.Machine.execImageProgramComplete ok s
  | .settingsProgramComplete ok => Sys2Proof.Machine.execSettingsProgramComplete ok s
  | .headerReadComplete ecc header => Sys2Proof.Machine.execHeaderReadComplete ecc header s
  | .imageReadComplete ecc records => Sys2Proof.Machine.execImageReadComplete ecc records s
  | .settingsReadComplete ecc classes regions => Sys2Proof.Machine.execSettingsReadComplete ecc classes regions s
  | .repairProgramComplete ok => Sys2Proof.Machine.execRepairProgramComplete ok s
  | .formatProgramComplete ok => Sys2Proof.Machine.execFormatProgramComplete ok s
  | .relocationSourceReadComplete ecc data => Sys2Proof.Machine.execRelocationSourceReadComplete ecc data s
  | .patrolReadComplete ecc => Sys2Proof.Machine.execPatrolReadComplete ecc s
  | .drainSelect => Sys2Proof.Machine.execDrainSelect s
  | .claimGrant line => Sys2Proof.Machine.execClaimGrant line s
  | .waitingWritePlace => Sys2Proof.Machine.execWaitingWritePlace s
  | .throughWriteClaimRequest port => Sys2Proof.Machine.execThroughWriteClaimRequest port s
  | .relocationJobStart => Sys2Proof.Machine.execRelocationJobStart s
  | .reassignServe => Sys2Proof.Machine.execReassignServe s
  | .mergeFailStorageServe => Sys2Proof.Machine.execMergeFailStorageServe s
  | .dataStateRecordingServe => Sys2Proof.Machine.execDataStateRecordingServe s
  | .noDataClaimRequest => Sys2Proof.Machine.execNoDataClaimRequest s
  | .reserveWaitClose => Sys2Proof.Machine.execReserveWaitClose s
  | .drainAllComplete => Sys2Proof.Machine.execDrainAllComplete s
  | .readLimits => Sys2Proof.Machine.execReadLimits s
  | .setFence => Sys2Proof.Machine.execSetFence s
  | .fenceLock => Sys2Proof.Machine.execFenceLock s
  | .fenceUnlock maintEn => Sys2Proof.Machine.execFenceUnlock maintEn s
  | .fenceFreeze => Sys2Proof.Machine.execFenceFreeze s
  | .loadRegion => Sys2Proof.Machine.execLoadRegion s
  | .loadClass => Sys2Proof.Machine.execLoadClass s
  | .saveSettings => Sys2Proof.Machine.execSaveSettings s
  | .loadRange => Sys2Proof.Machine.execLoadRange s
  | .loadTarget => Sys2Proof.Machine.execLoadTarget s
  | .sequenceSet => Sys2Proof.Machine.execSequenceSet s
  | .sequenceArm => Sys2Proof.Machine.execSequenceArm s
  | .sequenceDisarm => Sys2Proof.Machine.execSequenceDisarm s
  | .drainAll => Sys2Proof.Machine.execDrainAll s
  | .setReserve => Sys2Proof.Machine.execSetReserve s
  | .retireLine => Sys2Proof.Machine.execRetireLine s
  | .readRemap => Sys2Proof.Machine.execReadRemap s
  | .readSlot => Sys2Proof.Machine.execReadSlot s
  | .readCandidate => Sys2Proof.Machine.execReadCandidate s
  | .patrolStart => Sys2Proof.Machine.execPatrolStart s
  | .patrolStop => Sys2Proof.Machine.execPatrolStop s
  | .patrolStatus => Sys2Proof.Machine.execPatrolStatus s
  | .setGrantLimit => Sys2Proof.Machine.execSetGrantLimit s
  | .formatArray => Sys2Proof.Machine.execFormatArray s
  | .cancel => Sys2Proof.Machine.execCancel s
  | .unknownCommand code => Sys2Proof.Machine.execUnknownCommand code s
  | .flagsWrite group value => Sys2Proof.Machine.execFlagsWrite group value s
  | .enablesWrite group value => Sys2Proof.Machine.execEnablesWrite group value s
  | .groupEnableWrite value => Sys2Proof.Machine.execGroupEnableWrite value s
  | .incidentPop value => Sys2Proof.Machine.execIncidentPop value s
  | .watchHitsWrite value => Sys2Proof.Machine.execWatchHitsWrite value s
  | .registerWrite index value => Sys2Proof.Machine.execRegisterWrite index value s
  | .commandWriteWhileBusy code => Sys2Proof.Machine.execCommandWriteWhileBusy code s

end Sys2Proof.Machine
end

