-- ==== Sys2Proof/Machine/Step.lean ====
section
/-!
DEFINITION. One step of the part: the command at the front of the queue, or 100 µs of time on an empty queue.
-/

namespace Sys2Proof.Machine

/-- Take the command at the front of the queue and run it on the rest; on an empty queue 100 µs pass (log entry 3). -/
def step (s : State) : Host.Outcome State Fault Refusal :=
  match s.pending with
  | [] => .next (tick s)
  | c :: rest => exec c { s with pending := rest }

/-- The state with the command that a word of the table spells put at the front of the queue; the table gives no bits,
so no word spells one (log entry 28). -/
def State.withFetchWord (s : State) (nbits w : Nat) : State :=
  match decodeTableWord nbits w with
  | some c => { s with pending := c :: s.pending }
  | none => s

end Sys2Proof.Machine
end

