-- ==== Sys2Proof/Safety.lean ====
section
/-!
DEFINITION. What is safe and what stays so: the blocks a command leaves alone, and the invariants that every step keeps.
-/

namespace Sys2Proof.Machine

/-! ### Frames -/

/-- The blocks of the state. -/
inductive Block where
  | pins
  | path
  | fence
  | tables
  | buffer
  | link
  | remap
  | health
  | watch
  | metaCtl
  | mgmt
  | events
  | pending
deriving DecidableEq, Repr

/-- `t` differs from `s` in the listed blocks at most. -/
structure Keeps (changed : List Block) (s t : State) : Prop where
  pins : Block.pins ∉ changed → t.pins = s.pins
  path : Block.path ∉ changed → t.path = s.path
  fence : Block.fence ∉ changed → t.fence = s.fence
  tables : Block.tables ∉ changed → t.tables = s.tables
  buffer : Block.buffer ∉ changed → t.buffer = s.buffer
  link : Block.link ∉ changed → t.link = s.link
  remap : Block.remap ∉ changed → t.remap = s.remap
  health : Block.health ∉ changed → t.health = s.health
  watch : Block.watch ∉ changed → t.watch = s.watch
  metaCtl : Block.metaCtl ∉ changed → t.metaCtl = s.metaCtl
  mgmt : Block.mgmt ∉ changed → t.mgmt = s.mgmt
  events : Block.events ∉ changed → t.events = s.events
  pending : Block.pending ∉ changed → t.pending = s.pending

/-! ### Commands -/

/-- The Command Engine can take a command: PORST is released and busy is clear (R173). -/
def idle (s : State) : Bool := !s.pins.porst && s.mgmt.busy.isNone

/-- The Management Link after a command has been taken and has completed (R173): its code in COMMAND, the parameters
copied, its result in RESULT, its data in RDATA with 0 elsewhere, busy clear. -/
def completedMgmt (code : BitVec 8) (r : ResultCode) (data : List Word) (s : State) : Management :=
  { command := code, result := r.code, params := s.mgmt.params
    rdata := data ++ List.replicate (8 - data.length) 0#32, copy := s.mgmt.params, busy := none }

/-- A command was taken and completed in this step: RESULT, RDATA, busy and COMMAND_DONE (R173). -/
def Completed (code : BitVec 8) (r : ResultCode) (data : List Word) (s t : State) : Prop :=
  t.mgmt = completedMgmt code r data s ∧ t.events = s.events.post .commandDone

/-- PARAMn, read as a 32-bit number, as it stands when a command is taken (R173, R175). -/
def paramValue (s : State) (n : Nat) : Nat := (s.mgmt.params.getD n 0#32).toNat

/-! ### Ports -/

/-- The Line Path with one transaction of a port queue at a new stand. -/
def restand (p : Port) (serial : Nat) (st : Stand) (x : LinePath) : LinePath :=
  let move (q : List Taken) : List Taken := q.map fun t => if t.serial = serial then { t with stand := st } else t
  match p with
  | .a => { x with queueA := move x.queueA }
  | .b => { x with queueB := move x.queueB }

/-- The Line Path with one transaction of a port answered; the answer is held in the queue (R3). -/
def answered (p : Port) (t : Taken) (code : ResponseCode) (data : List Byte) (x : LinePath) : LinePath :=
  restand p t.serial (.decided { code := code, data := data }) x

/-- The Line Path with a transaction answered by a code that returns no data: size zero bytes for a READ, none for a
WRITE (R1, log entry 12). -/
def turnedAway (p : Port) (t : Taken) (code : ResponseCode) (x : LinePath) : LinePath :=
  answered p t code (match t.tx.kind with | .read => List.replicate t.tx.size 0#8 | .write => []) x

/-- A transaction stands at a port's intake and its checks have not been run; PORST is released. -/
def AtIntake (s : State) (p : Port) (t : Taken) : Prop :=
  s.pins.porst = false ∧ atIntake s p = some t ∧ t.stand = .taken

/-- The transaction passes the checks of steps 1 to 4 (R9 to R12). -/
def Admitted (s : State) (p : Port) (t : Taken) : Prop :=
  serviceState s = .inService ∧ txFormed t.tx = true ∧ txLine t.tx < s.fence.current
    ∧ (regionLookup s (txLine t.tx)).allows p t.tx.kind = true

/-- It passes step 5 as well: no matching range watch has the action REFUSE (R146). -/
def Passed (s : State) (p : Port) (t : Taken) : Prop := Admitted s p t ∧ watchRefuses p t.tx s = false

/-- The state after steps 5 and 6, which may change the watches and the events and nothing else. -/
def watched (p : Port) (t : Taken) (s : State) : State := sequenceStep p t.tx (watchStep p t.tx s)

/-- The line is written by posting (R19, R42). -/
def postingLine (s : State) (line : Nat) : Bool :=
  decide ((lineClass s line).mode = .posted) && !postingSuspended s

/-- No claim on the line keeps a request of this kind from being granted at once (R93). -/
def claimFree (s : State) (line : Nat) (k : ClaimKind) : Bool :=
  (claimRecord s line).waiting.isEmpty && (claimRecord s line).holders.admits k

/-- A port queue with the transactions of some taking stamps answered by one code, without data. -/
def answeredAll (serials : List Nat) (code : ResponseCode) (q : List Taken) : List Taken :=
  q.map fun t => if serials.contains t.serial then { t with stand := .decided { code := code, data := [] } } else t

/-- The through-write has reached the array: an operation of it was issued, or a request of it joined the work list
(R6, R14). -/
def ThroughWrite.reached (t : ThroughWrite) : Bool := t.issued || t.listed

/-- Work that no withdrawal takes out: it is neither a system read's nor a through-write's (R6, R14, R89). -/
def ArrayOp.stays (o : ArrayOp) : Prop := ∀ n, o.purpose ≠ .systemRead n ∧ o.purpose.writer ≠ some (.through n)

/-! ### The array's answers -/

/-- The part with the array port free (R82): what a completion leaves before it is acted on. -/
def portFreed (s : State) : State := { s with link := { s.link with inFlight := none } }

/-- The purpose of the operation in flight. -/
def dueFor (s : State) (p : Purpose) : Prop :=
  s.pins.porst = false ∧ ∃ o, s.link.inFlight = some o ∧ o.purpose = p

/-- A CORRECTED status that reaches the relocation threshold of the line's class (R44). -/
def corrected (s : State) (line : Nat) (ecc : Ecc) : Bool :=
  match ecc with
  | .corrected k => thresholdReached (lineClass s line).threshold k
  | _ => false

/-- A claim record without one claimant, holding or waiting (R94). -/
def withoutClaimant (o : Claimant) (r : ClaimRecord) : ClaimRecord :=
  { holders := r.holders.drop o, waiting := r.waiting.filter fun q => decide (q.owner ≠ o) }

/-- A claim record without several claimants (R94). -/
def withoutClaimants (os : List Claimant) (r : ClaimRecord) : ClaimRecord := os.foldl (fun r o => withoutClaimant o r) r

/-- The claimants of a line among some reads and some through-writes that leave (R92). -/
def leaving (reads : List SystemRead) (throughs : List ThroughWrite) (line : Nat) : List Claimant :=
  ((reads.filter fun r => r.line == line).map fun r => .read r.serial)
    ++ (throughs.filter fun t => t.course.line == line).map fun t => .through t.serial

/-- The operations of some reads and some through-writes that leave (R6, R14, R89). -/
def ownedBy (reads : List SystemRead) (throughs : List ThroughWrite) (o : ArrayOp) : Bool :=
  (reads.any fun r => decide (o.purpose = .systemRead r.serial))
    || throughs.any fun t => decide (o.purpose.writer = some (.through t.serial))

/-- Those reads and through-writes have left the scheduler: their operations are gone from the pending work and their
claims and claim requests from the table, and the rest stays (R94, R99). -/
def Withdrawn (reads : List SystemRead) (throughs : List ThroughWrite) (s t : State) : Prop :=
  t.link.work = s.link.work.filter (fun o => !ownedBy reads throughs o)
    ∧ ∀ line, claimRecord t line = withoutClaimants (leaving reads throughs line) (claimRecord s line)

/-- Part of LOADING (R159 to R162): the read of metadata line `l` is the one operation of the part, pending, in flight or
abandoned, and no claim, through-write or request of the Remap Unit could place another. -/
structure Loading (l : MetaLine) (s : State) : Prop where
  porst : s.pins.porst = false
  phase : s.metaCtl.phase = .loading
  ops : (s.link.work ++ s.link.inFlight.toList).map (·.purpose) = [.loadRead l]
  line : match l with | .image k => k < 1024 | .settings j => j < 6
  claims : s.link.claims = []
  throughs : s.path.throughs = []
  workList : s.remap.workList = []
  serving : s.remap.serving = none
  noData : s.remap.noData = []

/-- The slots from here up are still to be loaded while a metadata line is read (R160, R162). -/
def loadBound : MetaLine → Nat
  | .settings 0 => 0
  | .image k => 4 * k
  | .settings _ => 4096

/-- The metadata line whose read follows (R159, R160, R162). -/
def loadNext : MetaLine → Option MetaLine
  | .settings 0 => some (.image 0)
  | .image k => some (if k < 1023 then .image (k + 1) else .settings 1)
  | .settings j => if j < 5 then some (.settings (j + 1)) else none

/-- An array read that begins nothing's course and has never been issued. -/
def plainRead (purpose : Purpose) (arrayLine : Nat) : ArrayOp :=
  { purpose := purpose, arrayLine := arrayLine, action := .read, first := false, issued := false }

/-! ### Invariants -/

/-- While its enable is clear a flag is clear, and only assigned positions are held (R171, R177, R181). -/
def groupOk (g : Group) (x : EventGroup) : Bool :=
  x.flags &&& ~~~x.enables == 0#32 && x.enables &&& ~~~groupPositions g == 0#32

/-- The Event Controller is well-formed (R171, R177, R181 to R183). -/
def eventsOk (s : State) : Bool :=
  groupOk .access s.events.access && groupOk .media s.events.media && groupOk .array s.events.array
    && groupOk .service s.events.service && s.events.groupEnable &&& ~~~groupEnableBits == 0#32
    && decide (s.events.incidents.length ≤ Config.incidentDepth)

/-- Every table and register file has its size (R38, R41, R144, R149, R171). -/
def shapesOk (s : State) : Bool :=
  s.tables.regions.length == 16 && s.tables.storedRegions.length == 16 && s.tables.classes.length == 4
    && s.tables.storedClasses.length == 4 && s.watch.ranges.length == 8 && s.watch.targets.length == 16
    && s.mgmt.params.length == 8 && s.mgmt.rdata.length == 8

/-- The sequence watch's count is 1 to 16 and its index lies below it (R149). -/
def sequenceOk (s : State) : Bool :=
  decide (1 ≤ s.watch.count) && decide (s.watch.count ≤ 16) && decide (s.watch.index < s.watch.count)

/-- With a native user limit, every region entry lies within the native user space and names a class (R38). -/
def regionsOk (s : State) : Bool :=
  s.fence.uNative == 0
    || (s.tables.regions.all (regionFormed s.fence.uNative) && s.tables.storedRegions.all (regionFormed s.fence.uNative))

/-- Every relocation threshold, working and stored, is 1 to 8 or OFF (R41). -/
def classesOk (s : State) : Bool :=
  (s.tables.classes ++ s.tables.storedClasses).all fun c =>
    match c.threshold with
    | .off => true
    | .bits k => decide (1 ≤ k ∧ k ≤ 8)

/-- Every range watch's first address is at or below its last, and with a native user limit its last address and every
target lie in the native user space (R144, R148, R149, R152). -/
def watchesOk (s : State) : Bool :=
  s.watch.ranges.all (fun r => decide (r.first ≤ r.last))
    && (s.fence.uNative == 0
      || (s.watch.ranges.all (fun r => decide (r.last < 64 * s.fence.uNative))
        && s.watch.targets.all fun t => decide (t.addr < 64 * s.fence.uNative)))

/-- With a native user limit, both fences lie from 1 to U_native (R22). -/
def fencesOk (s : State) : Bool :=
  s.fence.uNative == 0
    || (decide (1 ≤ s.fence.current) && decide (s.fence.current ≤ s.fence.uNative) && decide (1 ≤ s.fence.stored)
      && decide (s.fence.stored ≤ s.fence.uNative))

/-- The refusal count against the lock state (R32). -/
def lockOk (s : State) : Bool :=
  match s.fence.lock with
  | .unlocked => s.fence.refusals == 0
  | .locked => decide (s.fence.refusals ≤ 4)
  | .expired => s.fence.refusals == 5
  | .frozen => decide (s.fence.refusals ≤ 5)

/-- The queues' bounds, the distinct lines of the candidate list and of the relocation queue, and no candidate on the
queue or in a job in flight (R2, R107, R123, R129). -/
def queuesOk (s : State) : Bool :=
  decide (s.path.queueA.length ≤ Config.portDepth) && decide (s.path.queueB.length ≤ Config.portDepth)
    && decide (s.health.candidates.length ≤ Config.candidateDepth)
    && decide (s.health.queue.length ≤ Config.relocationDepth)
    && decide (s.remap.noData.length ≤ Config.noDataDepth)
    && decide ((s.health.candidates.map (·.line)).Nodup) && decide ((s.health.queue.map (·.line)).Nodup)
    && s.health.queue.all (fun j => !isCandidate s j.line)
    && s.health.jobs.all (fun j => !isCandidate s j.line)

/-- A line's record in the claim table is not empty (R92). -/
def claimHeld (r : ClaimRecord) : Bool := !(r.holders.isNone && r.waiting.isEmpty)

/-- The sparse tables are canonical: keys rise, and no record is kept that an absent one would read as
(R92, R100, R105). -/
def sparseOk (s : State) : Bool :=
  sparseWf s.remap.table && sparseWf s.remap.records && sparseWf s.link.claims
    && s.remap.records.all (fun p => p.2 != .free) && s.link.claims.all (fun p => claimHeld p.2)
    && decide (s.remap.dead.Pairwise (· < ·))

/-- Of two entries of one line, the older is DRAINING and the younger PENDING (R54). -/
abbrev entryOrder (a b : SystemEntry) : Prop := a.line = b.line → a.state = .draining ∧ b.state = .pending

/-- The age list: R54's arrangements, and one DRAINING entry exactly while a drain is in progress, of its line (R59). -/
def bufferOk (s : State) : Bool :=
  decide (s.buffer.entries.Pairwise entryOrder)
    && (s.buffer.entries.filter fun e => e.state == .draining).map (·.line)
      == (s.buffer.drain.map fun c => [c.line]).getD []

/-- The entries in use fit the reserve, which is 0, 1, 2 or 4, as is one that SET_RESERVE waits for (R52, R76). -/
def reserveOk (s : State) : Bool :=
  isReserve s.buffer.reserve && decide (systemInUse s ≤ Config.bufferEntries - s.buffer.reserve)
    && decide (stagingInUse s ≤ s.buffer.reserve)
    && (match reserveWait s with
        | some n => isReserve n
        | none => true)

/-- The slot is FREE in the pool and exists (R103). -/
def freeSlot (s : State) (slot : Nat) : Bool :=
  decide (slot < Config.spareSlots) && !s.remap.dead.contains slot && s.remap.table.all (fun p => p.2.slot != slot)

/-- The pool is a partition: the entries' slots are distinct, exist and are not DEAD, the DEAD slots exist, and the
trial slot, of the request at the head of the work list, is FREE (R103, R108). -/
def poolOk (s : State) : Bool :=
  decide ((s.remap.table.map (·.2.slot)).Nodup)
    && s.remap.table.all (fun p => decide (p.2.slot < Config.spareSlots) && !s.remap.dead.contains p.2.slot)
    && s.remap.dead.all (fun n => decide (n < Config.spareSlots))
    && (s.remap.serving.isNone || !s.remap.workList.isEmpty)
    && (match s.remap.serving with
        | some (.spare slot) => freeSlot s slot
        | some (.inUse slot) => freeSlot s slot
        | _ => true)

/-- No slot from `n` up has been taken from an image line: none is DEAD and no entry names one (R159, R160). -/
def untouchedFrom (n : Nat) (s : State) : Bool :=
  s.remap.dead.all (fun slot => decide (slot < n)) && s.remap.table.all (fun p => decide (p.2.slot < n))

end Sys2Proof.Machine
end

