-- ==== Sys2Proof/Certificates/Slice0/Obligations.lean ====
section
/-!
DEFINITION. The statements for the provers.
A statement about an answer writes `exec c s = .next t` with what t holds; `Keeps` lists the blocks that may change.
-/

open Sys2Proof Sys2Proof.Machine

/-! ### The step -/

/-- The step takes the command at the front of the queue (the model's own queue, log entry 2). -/
def Obligations.StepTakesTheFrontCommand : Prop :=
  ∀ (c : Instr) (rest : List Instr) (s : State), step { s with pending := c :: rest } = exec c { s with pending := rest }

/-- On an empty queue a step lets 100 µs pass: the timers that run advance, and nothing else changes; under PORST time
stands still. The model's choice (log entries 3, 25). -/
def Obligations.EmptyQueueLetsATickPass : Prop :=
  ∀ s : State, s.pending = [] →
    (s.pins.porst = true → step s = .next s)
      ∧ (s.pins.porst = false →
        ∃ t, step s = .next t ∧ Keeps [.link, .metaCtl, .health] s t
          ∧ t.link = { s.link with waitTicks := s.link.waitTicks + (if grantWait s then 1 else 0) }
          ∧ t.metaCtl = { s.metaCtl with settleTicks := s.metaCtl.settleTicks.map (· + 1) }
          ∧ (s.health.patrol.mode = .stopped → t.health = s.health)
          ∧ (s.health.patrol.mode ≠ .stopped →
            t.health =
              { s.health with
                patrol :=
                  { s.health.patrol with
                    ticks := s.health.patrol.ticks + 1, since := min 65535 (s.health.patrol.since + 1) } }))

/-- Every command ends in a next state and leaves the waiting commands as they are (log entry 26). -/
def Obligations.EveryCommandAnswersANextState : Prop :=
  ∀ (c : Instr) (s : State), ∃ t, exec c s = .next t ∧ t.pending = s.pending

/-! ### Power-on reset -/

/-- State.reset holds the values of R36, R51, R80, R99, R122, R143, R149, R154, R168, R171 and R185 for GEOM 00, and the
read of settings line 0 with which LOADING begins (R159); the choice of GEOM and of the other pins is log entry 5. -/
def Obligations.ResetHoldsThePowerOnValues : Prop :=
  let s := State.reset
  s.fence = { uNative := 1043450, current := 1043450, stored := 1043450, lock := .unlocked, refusals := 0
              lockAtStart := false, retain := false }
    ∧ s.path.queueA = [] ∧ s.path.queueB = [] ∧ s.path.drainWait = false ∧ serviceState s = .start
    ∧ s.path.reads = [] ∧ s.path.throughs = []
    ∧ regionDefault =
      { enabled := false, first := 0, last := 0, cls := 0, aRead := true, aWrite := true, bRead := true, bWrite := true }
    ∧ classDefault = { mode := .posted, patrol := .included, threshold := .bits 3 }
    ∧ RangeWatch.cleared =
      { enabled := false, first := 0, last := 0, kinds := .read, ports := .a, action := .note, tag := 0#8, hit := false }
    ∧ s.tables.regions = List.replicate 16 regionDefault ∧ s.tables.storedRegions = List.replicate 16 regionDefault
    ∧ s.tables.classes = List.replicate 4 classDefault ∧ s.tables.storedClasses = List.replicate 4 classDefault
    ∧ s.buffer = { entries := [], waiting := [], drain := none, reserve := 2 }
    ∧ s.link =
        { work :=
            [{ purpose := .loadRead (.settings 0), arrayLine := 1043450 + 5120, action := .read, first := false
               issued := false }]
          inFlight := none, unavailable := false, limit := 250, waitTicks := 0, claims := [] }
    ∧ s.remap =
        { table := [], dead := [], records := [], loaded := false, fault := false, workList := [], serving := none
          noData := [], noDataAsked := false }
    ∧ s.health.candidates = [] ∧ s.health.queue = [] ∧ s.health.jobs = []
    ∧ s.health.patrol = { mode := .stopped, cursor := 0, passes := 0, interval := 100, ticks := 0, since := 0
                          outstanding := none }
    ∧ s.watch =
        { ranges := List.replicate 8 RangeWatch.cleared
          targets := List.replicate 16 { addr := 0, kind := .read, tag := 0#8 }, count := 1, index := 0, armed := false }
    ∧ s.metaCtl = { phase := .loading, repair := [], settleTicks := none }
    ∧ s.mgmt.command = 0#8 ∧ s.mgmt.result = 0#8 ∧ s.mgmt.params = List.replicate 8 0#32
    ∧ s.mgmt.rdata = List.replicate 8 0#32 ∧ s.mgmt.busy = none
    ∧ s.events = { access := .clear, media := .clear, array := .clear, service := .clear, groupEnable := 0#32
                   incidents := [], popped := none }

/-- The release of PORST samples GEOM: code 11 is the geometry fault, and every other code gives its native user limit
and the read of settings line 0 that LOADING begins with. Every block takes its power-on values: both copies of the
tables hold the format defaults, the remap table, the pool, the queues and the repair list are empty, the watches are
cleared, and no flag, enable or incident is held (R2, R8, R22, R36, R48, R51, R80, R99, R122, R143, R154, R158, R159,
R168, R171, R185). -/
def Obligations.PorstReleaseSamplesGeom : Prop :=
  ∀ (g : BitVec 2) (s : State), s.pins.porst = true →
    ∃ t, exec (.porstRelease g) s = .next t
      ∧ t.pins = { s.pins with porst := false, geom := g } ∧ t.pending = s.pending
      ∧ (g = 3#2 → t.metaCtl.phase = .geometryFault ∧ t.link.work = [])
      ∧ (g ≠ 3#2 →
        t.metaCtl.phase = .loading
          ∧ t.fence.uNative = (if g = 0#2 then 1043450 else if g = 1#2 then 2092026 else 4189178)
          ∧ t.fence.current = t.fence.uNative ∧ t.fence.stored = t.fence.uNative
          ∧ t.link.work.map (fun o => (o.purpose, o.arrayLine, o.action))
              = [(.loadRead (.settings 0), t.fence.uNative + 5120, .read)])
      ∧ t.fence.lock = .unlocked ∧ t.fence.refusals = 0 ∧ t.fence.lockAtStart = false ∧ t.fence.retain = false
      ∧ t.tables =
        { regions := List.replicate 16 regionDefault, classes := List.replicate 4 classDefault
          storedRegions := List.replicate 16 regionDefault, storedClasses := List.replicate 4 classDefault }
      ∧ t.buffer = { entries := [], waiting := [], drain := none, reserve := 2 }
      ∧ t.link =
        { work := t.link.work, inFlight := none, unavailable := false, limit := 250, waitTicks := 0, claims := [] }
      ∧ t.remap =
        { table := [], dead := [], records := [], loaded := false, fault := false, workList := [], serving := none
          noData := [], noDataAsked := false }
      ∧ t.health.candidates = [] ∧ t.health.queue = [] ∧ t.health.jobs = []
      ∧ t.health.patrol = { mode := .stopped, cursor := 0, passes := 0, interval := 100, ticks := 0, since := 0
                            outstanding := none }
      ∧ t.watch =
        { ranges := List.replicate 8 RangeWatch.cleared
          targets := List.replicate 16 { addr := 0, kind := .read, tag := 0#8 }, count := 1, index := 0, armed := false }
      ∧ t.metaCtl.repair = [] ∧ t.metaCtl.settleTicks = none
      ∧ t.mgmt.command = 0#8 ∧ t.mgmt.result = 0#8 ∧ t.mgmt.params = List.replicate 8 0#32
      ∧ t.mgmt.rdata = List.replicate 8 0#32 ∧ t.mgmt.busy = none
      ∧ t.events = { access := .clear, media := .clear, array := .clear, service := .clear, groupEnable := 0#32
                     incidents := [], popped := none }
      ∧ t.path.queueA = [] ∧ t.path.queueB = [] ∧ t.path.drainWait = false ∧ t.path.reads = [] ∧ t.path.throughs = []
      ∧ (g ≠ 3#2 → Loading (.settings 0) t)
      ∧ serviceState t = (if s.pins.srst then .closed else .start)

/-- The assertion of PORST ends every transaction, entry, operation, claim, request and command, and keeps the pins and
the model's queue; while it lasts no command but PORST_RELEASE changes anything except the levels of the pins (R8, R80,
R99, R122, R128, R169, R179, R185; log entry 23). -/
def Obligations.PorstAssertEndsAllWork : Prop :=
  (∀ s : State, s.pins.porst = false →
    ∃ t, exec .porstAssert s = .next t
      ∧ t.pins = { s.pins with porst := true } ∧ t.pending = s.pending
      ∧ t.path.queueA = [] ∧ t.path.queueB = [] ∧ t.path.drainWait = false ∧ t.path.reads = [] ∧ t.path.throughs = []
      ∧ t.buffer = { entries := [], waiting := [], drain := none, reserve := 2 }
      ∧ t.link = { work := [], inFlight := none, unavailable := false, limit := 250, waitTicks := 0, claims := [] }
      ∧ t.remap.table = [] ∧ t.remap.workList = [] ∧ t.remap.noData = [] ∧ t.remap.fault = false
      ∧ t.health.candidates = [] ∧ t.health.queue = [] ∧ t.health.jobs = [] ∧ t.health.patrol.mode = .stopped
      ∧ t.mgmt.busy = none ∧ t.events.incidents = [] ∧ (∀ f : Flag, t.events.isSet f = false ∧ t.events.isEnabled f = false)
      ∧ alert t = false ∧ areq t = false)
    ∧ ∀ (c : Instr) (s : State), s.pins.porst = true → (∀ g, c ≠ .porstRelease g) →
      ∃ t, exec c s = .next t ∧ Keeps [.pins] s t ∧ t.pins.porst = true ∧ t.pins.geom = s.pins.geom

/-! ### Events and the register window -/

/-- A posted cause sets its own flag if and only if that flag's enable is set, and touches no other flag, no enable and
no incident; an incident record joins the young end of its queue, or at 16 records is dropped with INCIDENT_OVERFLOW
posted (R180, R183). -/
def Obligations.PostedCausesSetEnabledFlags : Prop :=
  (∀ (f f' : Flag) (s : State),
    (post f s).events.isSet f' = (s.events.isSet f' || (decide (f' = f) && s.events.isEnabled f))
      ∧ (post f s).events.isEnabled f' = s.events.isEnabled f'
      ∧ (post f s).events.groupEnable = s.events.groupEnable
      ∧ (post f s).events.incidents = s.events.incidents ∧ (post f s).events.popped = s.events.popped
      ∧ Keeps [.events] s (post f s))
    ∧ ∀ (i : Incident) (s : State),
      (s.events.incidents.length < 16 →
        (writeIncident i s).events = { s.events with incidents := s.events.incidents ++ [i] })
        ∧ (16 ≤ s.events.incidents.length → (writeIncident i s).events = s.events.post .incidentOverflow)
        ∧ Keeps [.events] s (writeIncident i s)

/-- FLAGS_WRITE clears each flag of its group, and WATCH_HITS_WRITE the hit flag of each range watch entry, whose
position carries a 1; nothing else changes (R147, R177, R181). -/
def Obligations.WrittenOnesClearFlagsAndHits : Prop :=
  (∀ (g : Group) (v : Word) (s : State), s.pins.porst = false →
    ∃ t, exec (.flagsWrite g v) s = .next t ∧ Keeps [.events] s t
      ∧ (∀ f : Flag, t.events.isSet f = (s.events.isSet f && !(decide (f.group = g) && v.getLsbD f.position)))
      ∧ (∀ g', (t.events.group g').enables = (s.events.group g').enables)
      ∧ t.events.groupEnable = s.events.groupEnable ∧ t.events.incidents = s.events.incidents
      ∧ t.events.popped = s.events.popped)
    ∧ ∀ (v : Word) (s : State), s.pins.porst = false →
      ∃ t, exec (.watchHitsWrite v) s = .next t ∧ Keeps [.watch] s t
        ∧ t.watch.ranges.length = s.watch.ranges.length
        ∧ (∀ (e : Nat) (r : RangeWatch), s.watch.ranges[e]? = some r →
          t.watch.ranges[e]? = some { r with hit := r.hit && !v.getLsbD e })
        ∧ t.watch = { s.watch with ranges := t.watch.ranges }

/-- ENABLES_WRITE places the enables of its group, clears each flag whose enable passes to clear, and leaves every other
flag; bits of no position are ignored (R171, R177, R181). The premise is the invariant that R181 states. -/
def Obligations.EnablesWritePlacesEnables : Prop :=
  ∀ (g : Group) (v : Word) (s : State), s.pins.porst = false → eventsOk s = true →
    ∃ t, exec (.enablesWrite g v) s = .next t ∧ Keeps [.events] s t
      ∧ (∀ f : Flag, t.events.isEnabled f = (if f.group = g then v.getLsbD f.position else s.events.isEnabled f))
      ∧ (∀ f : Flag, t.events.isSet f =
          (if s.events.isEnabled f = true ∧ t.events.isEnabled f = false then false else s.events.isSet f))
      ∧ t.events.groupEnable = s.events.groupEnable ∧ t.events.incidents = s.events.incidents
      ∧ t.events.popped = s.events.popped

/-- ALERT is asserted exactly while PORST is released, the master enable is set and some group whose group enable is set
has a flag set, and bit 6 of the status byte shows it; GROUP_PENDING shows the groups that hold a flag.
GROUP_ENABLE_WRITE places the four group enables and the master enable and touches no flag, and no command but it and
PORST changes them (R182). -/
def Obligations.AlertFollowsEnabledPendingGroups : Prop :=
  (∀ s : State, (statusByte s).getLsbD 6 = alert s ∧ (s.pins.porst = true → alert s = false)) ∧
  (∀ s : State, eventsOk s = true →
    (alert s = true ↔
      s.pins.porst = false ∧ s.events.groupEnable.getLsbD 31 = true
        ∧ ∃ f : Flag, s.events.isSet f = true ∧ s.events.groupEnable.getLsbD (groupBit f.group) = true)
      ∧ ∀ g, ((readRegister s 0x14#7).getLsbD (groupBit g) = true ↔ ∃ f : Flag, f.group = g ∧ s.events.isSet f = true))
    ∧ (∀ (v : Word) (s : State), s.pins.porst = false →
      exec (.groupEnableWrite v) s = .next { s with events := { s.events with groupEnable := v &&& 0x8000000F#32 } })
    ∧ ∀ (c : Instr) (s t : State), exec c s = .next t → (∀ v, c ≠ .groupEnableWrite v) → c ≠ .porstAssert →
      (∀ g, c ≠ .porstRelease g) → t.events.groupEnable = s.events.groupEnable

/-- INCIDENT_POP, with any value: INC0 to INC3 take the oldest record, each field in its place, and an empty queue shows
kind NONE and zeros; the registers keep that content until the next pop or power-on reset. WATCH_HITS shows range watch
entry e's hit flag in bit e (R178). -/
def Obligations.IncidentPopShowsTheOldestRecord : Prop :=
  (∀ (v : Word) (s : State), s.pins.porst = false →
    ∃ t, exec (.incidentPop v) s = .next t ∧ Keeps [.events] s t
      ∧ (∀ f : Flag, t.events.isSet f = s.events.isSet f ∧ t.events.isEnabled f = s.events.isEnabled f)
      ∧ t.events.groupEnable = s.events.groupEnable ∧ t.events.incidents = s.events.incidents.drop 1
      ∧ t.events.popped = s.events.incidents.head?
      ∧ (s.events.incidents = [] →
        readRegister t 0x20#7 = 0#32 ∧ readRegister t 0x21#7 = 0#32 ∧ readRegister t 0x22#7 = 0#32
          ∧ readRegister t 0x23#7 = 0#32)
      ∧ (∀ i rest, s.events.incidents = i :: rest →
        let inc0 := readRegister t 0x20#7
        inc0.extractLsb' 0 8 =
            (match i.kind with
              | .watchHit => 1#8
              | .sequenceComplete => 2#8
              | .sequenceBreak => 3#8
              | .dataLoss => 4#8
              | .remapped => 5#8
              | .candidateAdded => 6#8
              | .candidateLost => 7#8
              | .metadataDamaged => 8#8)
          ∧ inc0.extractLsb' 8 2 = (match i.port with | none => 0#2 | some .a => 1#2 | some .b => 2#2)
          ∧ inc0.getLsbD 16 = i.line.isSome ∧ inc0.getLsbD 17 = i.detail.isSome ∧ inc0.getLsbD 18 = i.index.isSome
          ∧ inc0 &&& 0xFFF8FC00#32 = 0#32
          ∧ readRegister t 0x21#7 = BitVec.ofNat 32 (i.line.getD 0)
          ∧ readRegister t 0x22#7 = (i.detail.getD 0#8).setWidth 32
          ∧ readRegister t 0x23#7 = BitVec.ofNat 32 (i.index.getD 0)))
    ∧ (∀ (c : Instr) (s t : State), exec c s = .next t → (∀ v, c ≠ .incidentPop v) → c ≠ .porstAssert →
      (∀ g, c ≠ .porstRelease g) → t.events.popped = s.events.popped)
    ∧ ∀ (s : State) (e : Nat), e < 8 →
      (readRegister s 0x24#7).getLsbD e = (s.watch.ranges.getD e RangeWatch.cleared).hit

/-- REGISTER_WRITE completes: PARAM0 to PARAM7 take the value, every other index without a row of its own is ignored,
and no other command but PORST changes the parameters. A write frame of five bytes is the row of its index, and at
COMMAND that of its code, with CANCEL alone taken while busy; a read frame and a shorter frame are no row (log entries
15, 22). A read returns each register's value, IDENT and STATUS in their fields and 0 at an absent index, and MISO
carries the status byte, the value most significant byte first, and then 0 (R169 to R173, R175); what it shows after the
release of PORST in a frame that PORST crosses, and that a write frame is taken by the level of PORST at its fifth byte
alone, is the model's choice (log entry 34). -/
def Obligations.FramesWriteAndReadTheRegisters : Prop :=
  (∀ (i : BitVec 7) (v : Word) (s : State), s.pins.porst = false →
    (i.toNat < 4 ∨ 11 < i.toNat → exec (.registerWrite i v) s = .next s)
      ∧ (4 ≤ i.toNat → i.toNat ≤ 11 →
        ∃ t, exec (.registerWrite i v) s = .next t ∧ Keeps [.mgmt] s t
          ∧ t.mgmt = { s.mgmt with params := s.mgmt.params.set (i.toNat - 4) v }
          ∧ (s.mgmt.params.length = 8 → readRegister t i = v)))
    ∧ (∀ (c : Instr) (s t : State), exec c s = .next t → (∀ i v, c ≠ .registerWrite i v) → c ≠ .porstAssert →
      (∀ g, c ≠ .porstRelease g) → t.mgmt.params = s.mgmt.params)
    ∧ (∀ (busy maintEn : Bool) (f : List Byte), f.length < 5 → writeFrame busy maintEn f = none)
    ∧ (∀ (busy maintEn : Bool) (b0 b1 b2 b3 b4 : Byte) (more : List Byte),
      let frame := writeFrame busy maintEn (b0 :: b1 :: b2 :: b3 :: b4 :: more)
      let i : BitVec 7 := b0.setWidth 7
      let v : Word := b1 ++ b2 ++ b3 ++ b4
      (b0.getLsbD 7 = false → frame = none)
        ∧ (b0.getLsbD 7 = true →
          (∀ c, frame = some c → c.wellFormed = true)
            ∧ (∀ r ∈ ([(0x15#7, .groupEnableWrite v), (0x16#7, .flagsWrite .access v), (0x17#7, .enablesWrite .access v),
                  (0x18#7, .flagsWrite .media v), (0x19#7, .enablesWrite .media v), (0x1A#7, .flagsWrite .array v),
                  (0x1B#7, .enablesWrite .array v), (0x1C#7, .flagsWrite .service v), (0x1D#7, .enablesWrite .service v),
                  (0x1F#7, .incidentPop v), (0x24#7, .watchHitsWrite v)] : List (BitVec 7 × Instr)),
              i = r.1 → frame = some r.2)
            ∧ (i.toNat < 0x15 ∨ i = 0x1E#7 ∨ (0x1F < i.toNat ∧ i ≠ 0x24#7) → i ≠ 0x02#7 →
              frame = some (.registerWrite i v))
            ∧ (i = 0x02#7 → busy = true → b4 ≠ 0x19#8 → frame = some (.commandWriteWhileBusy b4))
            ∧ (i = 0x02#7 → busy = false ∨ b4 = 0x19#8 →
              (∀ r ∈ ([(0x01#8, .readLimits), (0x02#8, .setFence), (0x03#8, .fenceLock), (0x04#8, .fenceUnlock maintEn),
              (0x05#8, .fenceFreeze), (0x06#8, .loadRegion), (0x07#8, .loadClass), (0x08#8, .saveSettings),
              (0x09#8, .loadRange), (0x0A#8, .loadTarget), (0x0B#8, .sequenceSet), (0x0C#8, .sequenceArm),
              (0x0D#8, .sequenceDisarm), (0x0E#8, .drainAll), (0x0F#8, .setReserve), (0x10#8, .retireLine),
              (0x11#8, .readRemap), (0x12#8, .readSlot), (0x13#8, .readCandidate), (0x14#8, .patrolStart),
              (0x15#8, .patrolStop), (0x16#8, .patrolStatus), (0x17#8, .setGrantLimit), (0x18#8, .formatArray),
              (0x19#8, .cancel)] : List (BitVec 8 × Instr)),
                b4 = r.1 → frame = some r.2)
                ∧ (b4 = 0#8 ∨ 0x19 < b4.toNat → frame = some (.unknownCommand b4)))))
    ∧ (∀ s : State,
      let phase := match s.metaCtl.phase with
        | .geometryFault => 0 | .loading => 1 | .unformatted => 2 | .formatting => 3 | .readReady => 4 | .repairing => 5
        | .fullReady => 6
      let service := match serviceState s with | .closed => 0 | .resetDrain => 1 | .start => 2 | .inService => 3
      let link := match linkState s with
        | .idle => 0 | .requesting => 1 | .granted => 2 | .operating => 3 | .unavailable => 4
      let lock := match s.fence.lock with | .unlocked => 0 | .locked => 1 | .expired => 2 | .frozen => 3
      let status := readRegister s 0x01#7
      readRegister s 0x00#7 = 0x4120#16 ++ 0x01#8 ++ 0#6 ++ s.pins.geom
        ∧ status.getLsbD 31 = s.mgmt.busy.isSome ∧ status.extractLsb' 28 3 = BitVec.ofNat 3 phase
        ∧ status.extractLsb' 26 2 = BitVec.ofNat 2 service ∧ status.extractLsb' 23 3 = BitVec.ofNat 3 link
        ∧ status.extractLsb' 21 2 = BitVec.ofNat 2 lock ∧ status.getLsbD 20 = postingSuspended s
        ∧ status.getLsbD 19 = s.remap.fault ∧ status.extractLsb' 0 19 = 0#19
        ∧ readRegister s 0x02#7 = s.mgmt.command.setWidth 32 ∧ readRegister s 0x03#7 = s.mgmt.result.setWidth 32
        ∧ (∀ n, n < 8 →
          readRegister s (BitVec.ofNat 7 (4 + n)) = s.mgmt.params.getD n 0#32
            ∧ readRegister s (BitVec.ofNat 7 (12 + n)) = s.mgmt.rdata.getD n 0#32)
        ∧ readRegister s 0x15#7 = s.events.groupEnable
        ∧ (∀ r ∈ [(0x16#7, s.events.access), (0x18#7, s.events.media), (0x1A#7, s.events.array), (0x1C#7, s.events.service)],
          readRegister s r.1 = r.2.flags ∧ readRegister s (r.1 + 1#7) = r.2.enables)
        ∧ readRegister s 0x1E#7 = word s.events.incidents.length ∧ readRegister s 0x1F#7 = 0#32
        ∧ (∀ i : BitVec 7, 0x24 < i.toNat → readRegister s i = 0#32)
        ∧ (s.pins.porst = false →
          (statusByte s).getLsbD 7 = s.mgmt.busy.isSome ∧ (statusByte s).getLsbD 6 = alert s
            ∧ (statusByte s).extractLsb' 4 2 = BitVec.ofNat 2 service ∧ (statusByte s).getLsbD 3 = false
            ∧ (statusByte s).extractLsb' 0 3 = BitVec.ofNat 3 phase))
    ∧ ∀ (selected captured now : State) (b0 : Byte) (n : Nat),
      let miso := misoByte selected captured now b0 n
      (now.pins.porst = true → miso = some 0#8)
        ∧ (now.pins.porst = false → n = 0 → miso = some (statusByte selected))
        ∧ (now.pins.porst = false → captured.pins.porst = false → b0.getLsbD 7 = false → 1 ≤ n → n ≤ 4 →
          miso = some ((readRegister captured (b0.setWidth 7)).extractLsb' (8 * (4 - n)) 8))
        ∧ (4 < n → miso = some 0#8)

/-! ### The ports -/

/-- A port takes a transaction at the young end of its queue unless SRST is asserted or its queue holds 8. The decided
answers at the old end are sent in taking order, up to the first undecided one, and leave the queue; the other port's
queue stays (R2, R3, R5). The latest burst is shown in sentA or sentB (log entry 18). -/
def Obligations.PortsTakeAndAnswerInOrder : Prop :=
  (∀ (p : Port) (tx : Transaction) (s : State), s.pins.porst = false →
    (s.pins.srst = true ∨ 8 ≤ (queueOf s p).length → exec (.transactionTake p tx) s = .next s)
      ∧ (s.pins.srst = false → (queueOf s p).length < 8 →
        ∃ t, exec (.transactionTake p tx) s = .next t ∧ Keeps [.path] s t
          ∧ queueOf t p = queueOf s p ++ [{ serial := s.path.serial, tx := tx, stand := .taken }]
          ∧ (∀ q, q ≠ p → queueOf t q = queueOf s q)
          ∧ t.path = { s.path with queueA := t.path.queueA, queueB := t.path.queueB, serial := s.path.serial + 1 }))
    ∧ ∀ (p : Port) (s : State) (sent rest : List Taken) (rs : List Response), s.pins.porst = false →
      queueOf s p = sent ++ rest → sent.map (·.stand) = rs.map Stand.decided →
      (∀ x ∈ rest.head?, ∀ r, x.stand ≠ .decided r) →
      (rs = [] → exec (.responseSend p) s = .next s)
        ∧ (rs ≠ [] →
          ∃ t, exec (.responseSend p) s = .next t ∧ Keeps [.path] s t ∧ queueOf t p = rest
            ∧ (∀ q, q ≠ p → queueOf t q = queueOf s q)
            ∧ t.path =
                (match p with
                  | .a => { s.path with queueA := rest, sentA := rs }
                  | .b => { s.path with queueB := rest, sentB := rs }))

/-- Step 2: a size of 0, a size above 64, or an offset plus size above 64 is answered MALFORMED with the MALFORMED flag
posted, and no block is consulted; any other transaction is well-formed (R10). That a READ's answer carries as many zero
bytes as its size, also a malformed one, is the model's reading (log entry 12). -/
def Obligations.MalformedTransactionsAreAnsweredMalformed : Prop :=
  (∀ tx : Transaction,
    txFormed tx = true ↔ ¬(tx.size = 0 ∨ 64 < tx.size ∨ 64 < tx.addr.toNat % 64 + tx.size))
    ∧ ∀ (p : Port) (t : Taken) (s : State), AtIntake s p t → serviceState s = .inService →
      t.tx.size = 0 ∨ 64 < t.tx.size ∨ 64 < t.tx.addr.toNat % 64 + t.tx.size →
      exec (.intake p) s =
        .next { s with path := turnedAway p t .malformed s.path, events := s.events.post .malformed }

/-- The port service state is the first that applies of CLOSED, RESET_DRAIN, START and IN_SERVICE, and READY is asserted
in the last. Step 1 of intake answers RETRY out of IN_SERVICE; step 3 answers BEYOND_FENCE a line at or above the
current fence, and step 4 answers DENIED at a clear access flag of the first enabled region that holds the line, each
with its flag posted; nothing else changes. A port with no transaction to check is left as it is (R4, R5, R9, R11, R23,
R39, R40). The number of a refused READ's zero bytes, also of a malformed one's, is the model's reading (log entry 12).
-/
def Obligations.ServiceFenceAndAccessRefusals : Prop :=
  (∀ (p : Port) (s : State),
    (serviceState s = .inService ↔
      s.pins.srst = false ∧ s.path.drainWait = false
        ∧ (s.metaCtl.phase = .readReady ∨ s.metaCtl.phase = .repairing ∨ s.metaCtl.phase = .fullReady))
      ∧ (serviceState s = .closed ↔ s.pins.srst = true)
      ∧ (serviceState s = .resetDrain ↔ s.pins.srst = false ∧ s.path.drainWait = true)
      ∧ (serviceState s = .start ↔
        s.pins.srst = false ∧ s.path.drainWait = false
          ∧ (s.metaCtl.phase = .geometryFault ∨ s.metaCtl.phase = .loading ∨ s.metaCtl.phase = .unformatted
            ∨ s.metaCtl.phase = .formatting))
      ∧ (ready s = true ↔ serviceState s = .inService)
      ∧ ((∀ t ∈ atIntake s p, t.stand ≠ .taken) → exec (.intake p) s = .next s))
    ∧ (∀ (p : Port) (t : Taken) (s : State), AtIntake s p t → serviceState s ≠ .inService →
      exec (.intake p) s = .next { s with path := turnedAway p t .retry s.path })
    ∧ ∀ (p : Port) (t : Taken) (s : State), AtIntake s p t → serviceState s = .inService → txFormed t.tx = true →
      (s.fence.current ≤ t.tx.addr.toNat / 64 →
        exec (.intake p) s =
          .next { s with path := turnedAway p t .beyondFence s.path, events := s.events.post .beyondFence })
        ∧ (∀ (before after : List RegionEntry) (r : RegionEntry), t.tx.addr.toNat / 64 < s.fence.current →
          s.tables.regions = before ++ r :: after →
          (∀ x ∈ before, ¬(x.enabled = true ∧ x.first ≤ t.tx.addr.toNat / 64 ∧ t.tx.addr.toNat / 64 ≤ x.last)) →
          r.enabled = true → r.first ≤ t.tx.addr.toNat / 64 → t.tx.addr.toNat / 64 ≤ r.last →
          (match p, t.tx.kind with
            | .a, .read => r.aRead
            | .a, .write => r.aWrite
            | .b, .read => r.bRead
            | .b, .write => r.bWrite) = false →
          exec (.intake p) s =
            .next { s with path := turnedAway p t .denied s.path, events := s.events.post .denied })

/-- A transaction matches a range watch whose enable is set, whose range its span meets, and whose kinds and ports are
BOTH or its own. Step 5: a transaction that matches range watches sets every matching entry's hit flag, posts WATCH_HIT
and writes one incident, which names the lowest matching entry and its tag; one that matches none changes nothing. If a
matching entry has the action REFUSE it is answered WATCH_REFUSED, and otherwise it passes, so watched, to steps 6 and 7
(R145, R146). -/
def Obligations.WatchRefusalSetsHitsAndRecords : Prop :=
  let noted := fun (p : Port) (tx : Transaction) (before : List RangeWatch) (r : RangeWatch) (s : State) =>
    ({ s with
       watch :=
         { s.watch with
           ranges := s.watch.ranges.map fun x => if rangeMatches p tx x = true then { x with hit := true } else x }
       events :=
         (writeIncident
           { kind := .watchHit, line := some (tx.addr.toNat / 64), port := some p, detail := some r.tag
             index := some before.length }
           (post .watchHit s)).events } : State)
  (∀ (p : Port) (tx : Transaction) (r : RangeWatch),
    rangeMatches p tx r = true ↔
      r.enabled = true ∧ tx.addr.toNat ≤ r.last ∧ r.first ≤ tx.addr.toNat + tx.size - 1
        ∧ (r.kinds = .both ∨ (r.kinds = .read ∧ tx.kind = .read) ∨ (r.kinds = .write ∧ tx.kind = .write))
        ∧ (r.ports = .both ∨ (r.ports = .a ∧ p = .a) ∨ (r.ports = .b ∧ p = .b)))
  ∧ (∀ (p : Port) (t : Taken) (s : State) (before after : List RangeWatch) (r : RangeWatch), AtIntake s p t →
    Admitted s p t → s.watch.ranges = before ++ r :: after → (∀ x ∈ before, rangeMatches p t.tx x = false) →
    rangeMatches p t.tx r = true → (∃ x ∈ s.watch.ranges, rangeMatches p t.tx x = true ∧ x.action = .refuse) →
    exec (.intake p) s =
      .next { noted p t.tx before r s with path := turnedAway p t .watchRefused s.path })
    ∧ ∀ (p : Port) (t : Taken) (s : State),
      (Passed s p t ↔ Admitted s p t ∧ ∀ x ∈ s.watch.ranges, rangeMatches p t.tx x = true → x.action ≠ .refuse)
        ∧ watched p t s = sequenceStep p t.tx (watchStep p t.tx s)
        ∧ ((∀ x ∈ s.watch.ranges, rangeMatches p t.tx x = false) → watchStep p t.tx s = s)
        ∧ ∀ before after r, s.watch.ranges = before ++ r :: after → (∀ x ∈ before, rangeMatches p t.tx x = false) →
          rangeMatches p t.tx r = true → watchStep p t.tx s = noted p t.tx before r s

/-- Step 6 tests every transaction that reaches it, READ or WRITE: the sequence watch advances, completes, breaks or
stays. Step 7 then answers a WRITE under PWARN RETRY, whatever the watches found (R14, R149 to R151). -/
def Obligations.SequenceWatchIsTestedBeforeThePowerWarning : Prop :=
  let tested := fun (p : Port) (tx : Transaction) (s u : State) =>
    let hits := fun j => targetMatches tx (s.watch.targets.getD j Target.atRelease)
    let tag := fun j => (s.watch.targets.getD j Target.atRelease).tag
    let record := fun kind detail index =>
      ({ kind := kind, line := some (tx.addr.toNat / 64), port := some p, detail := some detail
         index := index } : Incident)
    (s.watch.armed = false → u.watch = s.watch ∧ u.events = s.events)
      ∧ (s.watch.armed = true → hits s.watch.index = true → s.watch.index + 1 < s.watch.count →
        u.watch = { s.watch with index := s.watch.index + 1 } ∧ u.events = s.events)
      ∧ (s.watch.armed = true → hits s.watch.index = true → s.watch.count ≤ s.watch.index + 1 →
        u.watch = { s.watch with index := 0 }
          ∧ u.events =
            (writeIncident (record .sequenceComplete (tag (s.watch.count - 1)) none)
              (post .sequenceComplete s)).events)
      ∧ (∀ j, s.watch.armed = true → hits s.watch.index = false → j < s.watch.count → hits j = true →
        (∀ k, k < j → hits k = false) →
        u.watch = { s.watch with index := 0 }
          ∧ u.events =
            (writeIncident (record .sequenceBreak (tag j) (some s.watch.index)) (post .sequenceBreak s)).events)
      ∧ (s.watch.armed = true → hits s.watch.index = false → (∀ j, j < s.watch.count → hits j = false) →
        u.watch = s.watch ∧ u.events = s.events)
  (∀ (p : Port) (tx : Transaction) (s : State),
    (∀ (t : Target), targetMatches tx t = true ↔
      t.kind = tx.kind ∧ tx.addr.toNat ≤ t.addr ∧ t.addr ≤ tx.addr.toNat + tx.size - 1)
      ∧ Keeps [.watch, .events] s (sequenceStep p tx s) ∧ tested p tx s (sequenceStep p tx s))
    ∧ ∀ (p : Port) (t : Taken) (s : State), AtIntake s p t → t.tx.kind = .write → s.pins.pwarn = true →
      (Passed s p t →
        exec (.intake p) s = .next { watched p t s with path := turnedAway p t .retry s.path })
        ∧ (Admitted s p t → (∀ r ∈ s.watch.ranges, rangeMatches p t.tx r = false) →
          ∃ u, exec (.intake p) s = .next u ∧ Keeps [.path, .watch, .events] s u
            ∧ u.path = turnedAway p t .retry s.path ∧ tested p t.tx s u)

/-- The forwarding snapshot takes each byte from the PENDING entry where its mask covers it, failing that from the
DRAINING entry, and else leaves it uncovered. Uncovered bytes cannot be returned truthfully on a POISONED line, nor on a
PARTIAL line where one of them lies outside the valid mask. A READ past the checks that the array is not asked for:
wholly forwarded bytes are answered OK, a byte that cannot be returned truthfully is answered POISON, and an unavailable
link UNAVAILABLE, in that order (R1, R15, R16, R58, R90, R118). The number of zero bytes of a POISON or UNAVAILABLE
answer is the model's reading (log entry 12). -/
def Obligations.ReadsAnsweredAtIntake : Prop :=
  (∀ (s : State) (line : Nat),
    let held := fun (st : EntryState) => s.buffer.entries.find? fun e => decide (e.line = line ∧ e.state = st)
    let gives := fun (st : EntryState) (i : Nat) => ∃ e, held st = some e ∧ e.mask.getLsbD i = true
    (∀ i, (forwardMask s line).getLsbD i = true ↔ gives .pending i ∨ gives .draining i)
      ∧ (∀ i e, i < 64 → held .pending = some e → e.mask.getLsbD i = true →
        (forwardData s line).getD i 0#8 = e.data.getD i 0#8)
      ∧ ∀ i e, i < 64 → ¬gives .pending i → held .draining = some e → e.mask.getLsbD i = true →
        (forwardData s line).getD i 0#8 = e.data.getD i 0#8)
  ∧ (∀ (s : State) (line : Nat) (asked : Mask),
    poisonedFor s line asked = true ↔
      ∃ e, remapEntry s line = some e
        ∧ (e.data = .poisoned
          ∨ ∃ valid, e.data = .partialOf valid ∧ ∃ i, asked.getLsbD i = true ∧ valid.getLsbD i = false))
  ∧ (∀ offset size i, i < 64 →
    ((spanMask offset size).getLsbD i = true ↔ offset ≤ i ∧ i < offset + size))
  ∧ (∀ (d : LineData) offset size, slice d offset size = (List.range size).map fun i => d.getD (offset + i) 0#8)
  ∧ ∀ (p : Port) (t : Taken) (s : State), AtIntake s p t → Passed s p t → t.tx.kind = .read →
    let v := watched p t s
    let line := t.tx.addr.toNat / 64
    let offset := t.tx.addr.toNat % 64
    let uncovered := spanMask offset t.tx.size &&& ~~~forwardMask s line
    (uncovered = Mask.empty →
      exec (.intake p) s =
        .next { v with path := answered p t .ok (slice (forwardData s line) offset t.tx.size) s.path })
      ∧ (uncovered ≠ Mask.empty → poisonedFor s line uncovered = true →
        exec (.intake p) s = .next { v with path := turnedAway p t .poison s.path })
      ∧ (uncovered ≠ Mask.empty → poisonedFor s line uncovered = false → s.link.unavailable = true →
        exec (.intake p) s = .next { v with path := turnedAway p t .unavailable s.path })

/-- Any other READ past the checks leaves intake with its snapshot, of the PENDING entry's bytes over the DRAINING
entry's, and requests a SHARED claim; granted at once it places its ARRAY_READ of the mapped line, and otherwise it
waits behind the earlier requests. The line is so asked for when it has no remap entry, when it is INTACT, or when it is
PARTIAL with every uncovered byte in its valid mask; the claims of the other lines stay (R15 to R17, R58, R92, R93,
R98). -/
def Obligations.ReadsRequestASharedClaim : Prop :=
  (∀ (s : State) (line : Nat),
    let held := fun (st : EntryState) => s.buffer.entries.find? fun e => decide (e.line = line ∧ e.state = st)
    let gives := fun (st : EntryState) (i : Nat) => ∃ e, held st = some e ∧ e.mask.getLsbD i = true
    (∀ i, (forwardMask s line).getLsbD i = true ↔ gives .pending i ∨ gives .draining i)
      ∧ (∀ i e, i < 64 → held .pending = some e → e.mask.getLsbD i = true →
        (forwardData s line).getD i 0#8 = e.data.getD i 0#8)
      ∧ ∀ i e, i < 64 → ¬gives .pending i → held .draining = some e → e.mask.getLsbD i = true →
        (forwardData s line).getD i 0#8 = e.data.getD i 0#8)
  ∧ (∀ (s : State) (line : Nat) (asked : Mask),
    poisonedFor s line asked = true ↔
      ∃ e, remapEntry s line = some e
        ∧ (e.data = .poisoned
          ∨ ∃ valid, e.data = .partialOf valid ∧ ∃ i, asked.getLsbD i = true ∧ valid.getLsbD i = false))
  ∧ ∀ (p : Port) (t : Taken) (s : State), AtIntake s p t → Passed s p t → t.tx.kind = .read →
    let line := t.tx.addr.toNat / 64
    let offset := t.tx.addr.toNat % 64
    let uncovered := spanMask offset t.tx.size &&& ~~~forwardMask s line
    uncovered ≠ Mask.empty → poisonedFor s line uncovered = false → s.link.unavailable = false →
    ∃ u, exec (.intake p) s = .next u ∧ Keeps [.path, .link, .watch, .events] s u
      ∧ u.watch = (watched p t s).watch ∧ u.events = (watched p t s).events
      ∧ u.path =
        restand p t.serial .reading
          { s.path with
            reads :=
              s.path.reads
                ++ [{ serial := t.serial, port := p, line := line, offset := offset, size := t.tx.size
                      covered := spanMask offset t.tx.size &&& forwardMask s line, snapshot := forwardData s line
                      answered := true }] }
      ∧ u.link.inFlight = s.link.inFlight ∧ u.link.unavailable = false ∧ u.link.limit = s.link.limit
      ∧ u.link.waitTicks = s.link.waitTicks ∧ (∀ l, l ≠ line → claimRecord u l = claimRecord s l)
      ∧ (claimFree s line .shared = true →
        (claimRecord u line).waiting = [] ∧ (claimRecord u line).holders = (claimRecord s line).holders.add .shared (.read t.serial)
          ∧ u.link.work =
            insertRead
              { purpose := .systemRead t.serial, arrayLine := mappedLine s line, action := .read, first := false
                issued := false } t.serial s.link.work)
      ∧ (claimFree s line .shared = false →
        (claimRecord u line).holders = (claimRecord s line).holders ∧ u.link.work = s.link.work
          ∧ (claimRecord u line).waiting = (claimRecord s line).waiting ++ [{ kind := .shared, owner := .read t.serial }])

/-- A line is written by posting while the class of its first enabled region, or of class 0 in no region, is POSTED and
posting is not suspended: the image is not loaded, or more than 64 spares are FREE. A posted WRITE past the checks
merges into the line's PENDING entry, or makes a new one when an entry is free and no write waits, and is answered OK;
else it is answered UNAVAILABLE, or waits at intake. A system entry is free while fewer than the system capacity are in
use, the smaller of two in a reserve wait, and not all 32 entries (R1, R14, R19, R39, R41, R42, R52 to R57, R71). That a
new entry is not made before the waiting writes is the model's reading (log entry 9). -/
def Obligations.PostedWritesMergeJoinOrWait : Prop :=
  (∀ (s : State) (line : Nat),
    let covers := fun (r : RegionEntry) => r.enabled = true ∧ r.first ≤ line ∧ line ≤ r.last
    let capacity :=
      match s.mgmt.busy with
      | some (.reserve n) => min (32 - s.buffer.reserve) (32 - n)
      | _ => 32 - s.buffer.reserve
    (∀ before r after, s.tables.regions = before ++ r :: after → (∀ x ∈ before, ¬covers x) → covers r →
      lineClass s line = s.tables.classes.getD r.cls classDefault)
      ∧ ((∀ x ∈ s.tables.regions, ¬covers x) → lineClass s line = s.tables.classes.getD 0 classDefault)
      ∧ (postingLine s line = true ↔
        (lineClass s line).mode = .posted
          ∧ ¬(s.remap.loaded = true ∧ 4096 - s.remap.dead.length - s.remap.table.length ≤ 64))
      ∧ ((pendingEntry s line).isSome = true ↔ ∃ e ∈ s.buffer.entries, e.line = line ∧ e.state = .pending)
      ∧ (systemEntryFree s = true ↔
        s.buffer.entries.length < capacity ∧ s.buffer.entries.length + s.health.jobs.length < 32))
  ∧ (∀ (mask : Mask) (new old : LineData) (i : Nat), i < 64 →
    (overlay mask new old).getD i 0#8 = if mask.getLsbD i then new.getD i 0#8 else old.getD i 0#8)
  ∧ (∀ (offset : Nat) (data : List Byte) (i : Nat), offset + i < 64 →
    (placeBytes offset data).getD (offset + i) 0#8 = data.getD i 0#8)
  ∧ ∀ (p : Port) (t : Taken) (s : State), AtIntake s p t → Passed s p t → t.tx.kind = .write → s.pins.pwarn = false →
    let v := watched p t s
    let line := t.tx.addr.toNat / 64
    let offset := t.tx.addr.toNat % 64
    let mask := spanMask offset t.tx.size
    let data := placeBytes offset t.tx.data
    let mayJoin := s.buffer.waiting.isEmpty && systemEntryFree s
    postingLine s line = true →
    ((pendingEntry s line).isSome = true →
      exec (.intake p) s =
        .next
          (settle
            { v with
              path := turnedAway p t .ok s.path
              buffer :=
                { s.buffer with
                  entries :=
                    s.buffer.entries.map fun e =>
                      if e.line = line ∧ e.state = .pending then
                        { e with mask := e.mask ||| mask, data := overlay mask data e.data }
                      else e } }))
      ∧ ((pendingEntry s line).isSome = false → mayJoin = true →
        exec (.intake p) s =
          .next
            (settle
              { v with
                path := turnedAway p t .ok s.path
                buffer :=
                  { s.buffer with
                    entries :=
                      s.buffer.entries
                        ++ [{ line := line, mask := mask, data := overlay mask data zeroLine, state := .pending
                              firstWriter := p, target := false }] } }))
      ∧ ((pendingEntry s line).isSome = false → mayJoin = false → s.link.unavailable = true →
        exec (.intake p) s = .next { v with path := turnedAway p t .unavailable s.path })
      ∧ ((pendingEntry s line).isSome = false → mayJoin = false → s.link.unavailable = false →
        exec (.intake p) s =
          .next
            { v with
              path := restand p t.serial .waiting s.path
              buffer :=
                { s.buffer with
                  waiting :=
                    s.buffer.waiting
                      ++ [{ port := p, serial := t.serial, line := line, mask := mask, data := data }] } })

/-- Every other WRITE past the checks, to a THROUGH class or while posting is suspended at 64 or fewer FREE spares of a
loaded image, is a through-write: UNAVAILABLE at once on an unavailable link; else it holds its port's intake, ends
READ_READY, and claims its line once the buffer holds no entry for it (R19, R20, R42, R71, R72, R166). That the claim of
a clear line, and the course it begins, fall within the same INTAKE is the model's reading (log entry 20). -/
def Obligations.ThroughWritesHoldTheirPortsIntake : Prop :=
  (∀ (s : State) (line : Nat),
    (postingLine s line = false ↔
      (lineClass s line).mode = .through
        ∨ (s.remap.loaded = true ∧ 4096 - s.remap.dead.length - s.remap.table.length ≤ 64))
      ∧ (lineClear s line = true ↔ ∀ e ∈ s.buffer.entries, e.line ≠ line))
  ∧ ∀ (p : Port) (t : Taken) (s : State), AtIntake s p t → Passed s p t → t.tx.kind = .write → s.pins.pwarn = false →
    let v := watched p t s
    let line := t.tx.addr.toNat / 64
    let offset := t.tx.addr.toNat % 64
    let data := placeBytes offset t.tx.data
    let w : ThroughWrite :=
      { serial := t.serial, port := some p, stage := .waitLine, issued := false, listed := false
        course :=
          { line := line, mask := spanMask offset t.tx.size, bytes := data, mapped := line, view := .intact
            drainLine := data, known := spanMask offset t.tx.size } }
    let held : State :=
      { v with path := restand p t.serial .through { s.path with throughs := s.path.throughs ++ [w] } }
    postingLine s line = false →
    (s.link.unavailable = true → exec (.intake p) s = .next { v with path := turnedAway p t .unavailable s.path })
      ∧ (s.link.unavailable = false → s.metaCtl.phase ≠ .readReady →
        exec (.intake p) s = .next (if lineClear s line then claimThrough w held else held))
      ∧ (s.link.unavailable = false → s.metaCtl.phase = .readReady →
        exec (.intake p) s = .next (if lineClear s line then claimThrough w (enterRepairing held) else enterRepairing held))

/-- A through-write that waits for its line asks for an EXCLUSIVE claim as soon as no entry of the line is left; granted
at once it begins its course, and otherwise it waits behind the earlier requests (R72, R73, R92, R93). -/
def Obligations.ThroughWriteClaimsItsClearLine : Prop :=
  ∀ (p : Port) (s : State), s.pins.porst = false →
    (waitingThrough s p = none → exec (.throughWriteClaimRequest p) s = .next s)
      ∧ ∀ w, waitingThrough s p = some w →
        let line := w.course.line
        (lineClear s line = false → exec (.throughWriteClaimRequest p) s = .next s)
          ∧ (lineClear s line = true → claimFree s line .exclusive = false →
            ∃ u, exec (.throughWriteClaimRequest p) s = .next u ∧ Keeps [.path, .link] s u
              ∧ u.path =
                { s.path with
                  throughs :=
                    s.path.throughs.map fun x => if x.serial = w.serial then { x with stage := .waitClaim } else x }
              ∧ u.link = { s.link with claims := u.link.claims }
              ∧ (∀ l, l ≠ line → claimRecord u l = claimRecord s l)
              ∧ (claimRecord u line).holders = (claimRecord s line).holders
              ∧ (claimRecord u line).waiting
                  = (claimRecord s line).waiting ++ [{ kind := .exclusive, owner := .through w.serial }])
          ∧ (lineClear s line = true → claimFree s line .exclusive = true →
            ∃ v, exec (.throughWriteClaimRequest p) s
                  = .next (startCourse (.through w.serial) line w.course.mask w.course.bytes v)
              ∧ Keeps [.path, .link] s v
              ∧ v.path =
                { s.path with
                  throughs :=
                    s.path.throughs.map fun x => if x.serial = w.serial then { x with stage := .waitClaim } else x }
              ∧ v.link = { s.link with claims := v.link.claims }
              ∧ (∀ l, l ≠ line → claimRecord v l = claimRecord s l)
              ∧ claimRecord v line = { holders := .exclusive (.through w.serial), waiting := [] })

/-- The waiting posted writes are taken again in the order in which they began to wait; each merges into its line's
PENDING entry or takes a free entry and is answered OK, or goes on waiting (R55 to R57). -/
def Obligations.WaitingWritesAreTakenInOrder : Prop :=
  (∀ s : State, s.pins.porst = false →
    exec .waitingWritePlace s = .next (settle (s.buffer.waiting.foldl (fun v w => retryWaiting w v) s)))
    ∧ ∀ (w : WaitingWrite) (s : State),
      let path := restand w.port w.serial (.decided { code := .ok, data := [] }) s.path
      let waiting := s.buffer.waiting.filter fun x => x.serial != w.serial
      ((pendingEntry s w.line).isSome = true →
        retryWaiting w s =
          { s with
            path := path
            buffer :=
              { s.buffer with
                waiting := waiting
                entries :=
                  s.buffer.entries.map fun e =>
                    if e.line = w.line ∧ e.state = .pending then
                      { e with mask := e.mask ||| w.mask, data := overlay w.mask w.data e.data }
                    else e } })
        ∧ ((pendingEntry s w.line).isSome = false → systemEntryFree s = true →
          retryWaiting w s =
            { s with
              path := path
              buffer :=
                { s.buffer with
                  waiting := waiting
                  entries :=
                    s.buffer.entries
                      ++ [{ line := w.line, mask := w.mask, data := overlay w.mask w.data zeroLine, state := .pending
                            firstWriter := w.port, target := false }] } })
        ∧ ((pendingEntry s w.line).isSome = false → systemEntryFree s = false → retryWaiting w s = s)

/-! ### Drains and courses -/

/-- A course fixes its mapped line and data state and begins by its mask: a full mask programs the mapped line, a
partial one on a POISONED line asks for merge-fail storage, and any other reads the line for a merge. A drain's course
is the buffer's; a through-write takes its course, behind those granted before it (R60, R65, R73, R98, R106). -/
def Obligations.CoursesBeginByMaskAndDataState : Prop :=
  ∀ (w : Writer) (line : Nat) (mask : Mask) (bytes : LineData) (s : State),
    (∀ n, w = .through n → ∃ x ∈ s.path.throughs, x.serial = n) →
    let u := startCourse w line mask bytes s
    let op := fun purpose action =>
      ({ purpose := purpose, arrayLine := mappedLine s line, action := action, first := true, issued := false } : ArrayOp)
    let stores := mask ≠ Mask.full ∧ dataState s line = .poisoned
    let course : Course :=
      { line := line, mask := mask, bytes := bytes, mapped := mappedLine s line, view := dataState s line
        drainLine := if stores then overlay mask bytes zeroLine else bytes, known := mask }
    Keeps [.path, .buffer, .link, .remap] s u
      ∧ (w = .drain → u.path = s.path ∧ u.buffer = { s.buffer with drain := some course })
      ∧ (∀ n, w = .through n →
        u.buffer = s.buffer
          ∧ u.path =
            { s.path with
              throughs :=
                s.path.throughs.filter (fun x => x.serial != n)
                  ++ (s.path.throughs.filter fun x => x.serial == n).map fun x =>
                    { x with stage := .course, course := course, listed := x.listed || decide stores } })
      ∧ (mask = Mask.full →
        u.remap = s.remap
          ∧ u.link = { s.link with work := s.link.work ++ [op (.mappedProgram w) (.program (.bytes bytes))] })
      ∧ (mask ≠ Mask.full → dataState s line = .poisoned →
        u.link = s.link
          ∧ u.remap =
            { s.remap with workList := s.remap.workList ++ [.storage w line (overlay mask bytes zeroLine) mask] })
      ∧ (mask ≠ Mask.full → dataState s line ≠ .poisoned →
        u.remap = s.remap ∧ u.link = { s.link with work := s.link.work ++ [op (.mergeRead w) .read] })
      ∧ ∃ c, courseOf u w = some c ∧ c.line = line ∧ c.mask = mask ∧ c.bytes = bytes
          ∧ c.mapped = mappedLine s line ∧ c.view = dataState s line

/-- With no drain in progress, in REPAIRING or FULL_READY, the oldest PENDING entry whose line has no DRAINING entry and
no claim becomes DRAINING under an immediate EXCLUSIVE claim and begins its course (R53, R54, R59, R60). That a line on
which only a SHARED request waits, with no holder, is not eligible is the model's reading (log entry 8). -/
def Obligations.DrainSelectTakesTheOldestEligibleEntry : Prop :=
  ∀ s : State, s.pins.porst = false →
    (s.buffer.drain.isSome = true ∨ ¬(s.metaCtl.phase = .repairing ∨ s.metaCtl.phase = .fullReady)
      ∨ (∀ e ∈ s.buffer.entries, eligible s e = false) → exec .drainSelect s = .next s)
      ∧ ∀ (before after : List SystemEntry) (e : SystemEntry), s.buffer.drain = none →
        s.metaCtl.phase = .repairing ∨ s.metaCtl.phase = .fullReady →
        s.buffer.entries = before ++ e :: after → (∀ x ∈ before, eligible s x = false) → eligible s e = true →
        ∃ v, exec .drainSelect s = .next (startCourse .drain e.line e.mask e.data v) ∧ Keeps [.buffer, .link] s v
          ∧ v.buffer =
            { s.buffer with
              entries :=
                s.buffer.entries.map fun x =>
                  if x.line = e.line ∧ x.state = .pending then { x with state := .draining } else x }
          ∧ v.link = { s.link with claims := v.link.claims }
          ∧ claimRecord v e.line = { holders := .exclusive .drain, waiting := [] }
          ∧ ∀ l, l ≠ e.line → claimRecord v l = claimRecord s l

/-- A course that ends frees its line's claim: a drain's entry leaves the buffer, reported as DATA_LOSS with its first
writer and the cause when the course was lost; a through-write is answered OK or WRITE_FAILED, if a port still waits for
it (R20, R66, R69, R74, R94). -/
def Obligations.CoursesEndByAnswerOrReport : Prop :=
  ∀ s : State,
    (∀ c, s.buffer.drain = some c →
      let u := endDrain .programmed s
      Keeps [.buffer, .link] s u
        ∧ u.buffer =
          { s.buffer with entries := s.buffer.entries.filter (fun e => e.state != .draining), drain := none }
        ∧ u.link = { s.link with claims := u.link.claims }
        ∧ claimRecord u c.line = withoutClaimant .drain (claimRecord s c.line)
        ∧ ∀ l, l ≠ c.line → claimRecord u l = claimRecord s l)
      ∧ (∀ c e cause, s.buffer.drain = some c → drainingEntry s = some e →
        let u := endDrain (.lost cause) s
        Keeps [.buffer, .link, .events, .mgmt] s u
          ∧ u.buffer = (endDrain .programmed s).buffer ∧ u.link = (endDrain .programmed s).link
          ∧ u.events =
            (writeIncident
              { kind := .dataLoss, line := some e.line, port := some e.firstWriter
                detail := some (match cause with | .noSpare => 0#8 | .metadata => 1#8), index := none }
              (post .dataLoss s)).events
          ∧ (∀ n d, s.mgmt.busy = some (.drainAll n d) → e.target = true →
            u.mgmt = { s.mgmt with busy := some (.drainAll n (d + 1)) })
          ∧ ((∀ n d, s.mgmt.busy ≠ some (.drainAll n d)) ∨ e.target = false → u.mgmt = s.mgmt))
      ∧ (∀ n t ending, throughOf s n = some t →
        let u := endThrough n ending s
        let code := match ending with | .programmed => ResponseCode.ok | .lost _ => .writeFailed
        Keeps [.path, .link] s u
          ∧ u.path =
            { s.path with
              queueA := u.path.queueA, queueB := u.path.queueB
              throughs := s.path.throughs.filter fun x => x.serial != n }
          ∧ (∀ p, t.port = some p →
            queueOf u p =
              (queueOf s p).map fun x =>
                if x.serial = n then { x with stand := .decided { code := code, data := [] } } else x)
          ∧ (∀ p, t.port ≠ some p → queueOf u p = queueOf s p)
          ∧ u.link = { s.link with claims := u.link.claims }
          ∧ claimRecord u t.course.line = withoutClaimant (.through n) (claimRecord s t.course.line)
          ∧ ∀ l, l ≠ t.course.line → claimRecord u l = claimRecord s l)

/-! ### Pins and timers -/

/-- SRST closes the ports, discards their queues and the waiting writes, withdraws the reads whose array read is not in
flight and the through-writes with no operation issued, with their operations and claims, and leaves the others without
an answer; the buffer's entries stay, the fence and the working tables return to their stored values unless retain is
set, and the watches are disabled. Its release opens the reset drain wait unless the buffer holds no system entry, and
the wait closes when it holds none (R5, R6, R7, R35, R51, R79, R94, R99, R122, R154). The model's choices: an edge to
the level the pin has changes nothing (log entry 1), waiting claims are settled by CLAIM_GRANT (log entry 8), and the
merge-fail storage of a withdrawn through-write leaves the work list (log entry 10). -/
def Obligations.SrstClosesThePortsAndWithdraws : Prop :=
  ∀ s : State, s.pins.porst = false →
    let reads := s.path.reads.filter fun r => !readInFlight s r
    let throughs := s.path.throughs.filter fun t => !t.issued
    let goes := fun r => throughs.any fun t => decide (Request.writer r = some (.through t.serial))
    (s.pins.srst = true → exec .srstAssert s = .next s)
      ∧ (s.pins.srst = false →
        ∃ v, exec .srstAssert s = .next (settle v)
          ∧ Keeps [.pins, .path, .fence, .tables, .buffer, .link, .remap, .watch] s v
          ∧ v.pins = { s.pins with srst := true } ∧ serviceState v = .closed
          ∧ v.path.queueA = [] ∧ v.path.queueB = [] ∧ v.path.drainWait = false
          ∧ v.path.reads = (s.path.reads.filter (readInFlight s)).map (fun r => { r with answered := false })
          ∧ (∀ x ∈ v.path.throughs, x.port = none)
          ∧ ((s.path.throughs.map (·.serial)).Nodup →
            v.path.throughs = (s.path.throughs.filter (·.issued)).map (fun x => { x with port := none }))
          ∧ v.path.serial = s.path.serial ∧ v.path.sentA = s.path.sentA ∧ v.path.sentB = s.path.sentB
          ∧ v.buffer = { s.buffer with waiting := [] }
          ∧ v.link = { s.link with work := v.link.work, claims := v.link.claims } ∧ Withdrawn reads throughs s v
          ∧ v.remap =
            { s.remap with
              workList := s.remap.workList.filter (fun r => !goes r)
              serving := if s.remap.workList.head?.any goes then none else s.remap.serving }
          ∧ (s.fence.retain = true → v.fence = s.fence ∧ v.tables = s.tables)
          ∧ (s.fence.retain = false →
            v.fence = { s.fence with current := s.fence.stored }
              ∧ v.tables =
                { s.tables with regions := s.tables.storedRegions, classes := s.tables.storedClasses })
          ∧ v.watch =
            { s.watch with
              ranges := s.watch.ranges.map (fun r => { r with enabled := false }), index := 0, armed := false })
      ∧ (s.pins.srst = false → exec .srstRelease s = .next s)
      ∧ (s.pins.srst = true →
        exec .srstRelease s =
          .next
            { s with
              pins := { s.pins with srst := false }
              path := { s.path with drainWait := !s.buffer.entries.isEmpty } })
      ∧ (s.buffer.entries = [] →
        exec .resetDrainWaitClose s = .next { s with path := { s.path with drainWait := false } })
      ∧ (s.buffer.entries ≠ [] → exec .resetDrainWaitClose s = .next s)

/-- PWARN answers RETRY to the waiting posted writes and to the through-writes that have not reached the array, and
withdraws those with their operations and claims; reads, entries and the rest go on. Its release changes its level alone
(R14, R78, R94, R99). The model's choices: an edge to the level the pin has changes nothing (log entry 1), and waiting
claims are settled by CLAIM_GRANT (log entry 8). -/
def Obligations.PowerWarningTurnsWaitingWritesAway : Prop :=
  ∀ s : State, s.pins.porst = false →
    let away := fun p =>
      (s.buffer.waiting.filter fun w => w.port = p).map (·.serial)
        ++ (s.path.throughs.filter fun t => !t.reached && decide (t.port = some p)).map (·.serial)
    (s.pins.pwarn = true → exec .pwarnAssert s = .next s)
      ∧ (s.pins.pwarn = false →
        ∃ v, exec .pwarnAssert s = .next (settle v) ∧ Keeps [.pins, .path, .buffer, .link] s v
          ∧ v.pins = { s.pins with pwarn := true } ∧ v.buffer = { s.buffer with waiting := [] }
          ∧ (∀ p, queueOf v p = answeredAll (away p) .retry (queueOf s p))
          ∧ v.path =
            { s.path with queueA := v.path.queueA, queueB := v.path.queueB, throughs := v.path.throughs }
          ∧ ((s.path.throughs.map (·.serial)).Nodup → v.path.throughs = s.path.throughs.filter (·.reached))
          ∧ v.link = { s.link with work := v.link.work, claims := v.link.claims }
          ∧ Withdrawn [] (s.path.throughs.filter fun t => !t.reached) s v)
      ∧ exec .pwarnRelease s = .next { s with pins := { s.pins with pwarn := false } }

/-- AGNT's rise clears the unavailable condition, with AVAILABLE posted, and ends the grant wait; its fall abandons the
operation in flight, which is pending again before all others, with GRANT_WITHDRAWN posted. AREQ is asserted while work
is pending or in flight or the link is UNAVAILABLE, and the link state is the first that applies (R83, R84, R85, R87,
R91). That an edge to the level the pin has changes nothing is the model's choice (log entry 1). -/
def Obligations.GrantFollowsItsPin : Prop :=
  (∀ s : State,
    (areq s = true ↔
      s.pins.porst = false ∧ (s.link.work ≠ [] ∨ s.link.inFlight.isSome = true ∨ s.link.unavailable = true))
      ∧ (linkState s = .operating ↔ s.link.inFlight.isSome = true)
      ∧ (linkState s = .unavailable ↔ s.link.inFlight = none ∧ s.link.unavailable = true)
      ∧ (linkState s = .granted ↔
        s.link.inFlight = none ∧ s.link.unavailable = false ∧ s.link.work ≠ [] ∧ s.pins.agnt = true)
      ∧ (linkState s = .requesting ↔
        s.link.inFlight = none ∧ s.link.unavailable = false ∧ s.link.work ≠ [] ∧ s.pins.agnt = false)
      ∧ (linkState s = .idle ↔ s.link.inFlight = none ∧ s.link.unavailable = false ∧ s.link.work = []))
  ∧ ∀ s : State, s.pins.porst = false →
    (s.pins.agnt = true → exec .agntAssert s = .next s)
      ∧ (s.pins.agnt = false →
        exec .agntAssert s =
          .next
            { s with
              pins := { s.pins with agnt := true }
              link := { s.link with unavailable := false, waitTicks := 0 }
              events := if s.link.unavailable then s.events.post .available else s.events })
      ∧ (s.pins.agnt = false → exec .agntWithdraw s = .next s)
      ∧ (s.pins.agnt = true → s.link.inFlight = none →
        exec .agntWithdraw s = .next { s with pins := { s.pins with agnt := false } })
      ∧ ∀ o, s.pins.agnt = true → s.link.inFlight = some o →
          exec .agntWithdraw s =
            .next
              { s with
                pins := { s.pins with agnt := false }
                link := { s.link with work := o :: s.link.work, inFlight := none, waitTicks := 0 }
                events := s.events.post .grantWithdrawn }

/-- The grant wait timer expires only while work is pending without a grant, out of the start phases, at a limit other
than 0; the link becomes UNAVAILABLE with its flag posted, the reads, through-writes and waiting writes are answered
UNAVAILABLE, a WRITE without data and a READ with zero bytes, and the reads and the through-writes with no reassign
begun end with their operations and claims; other work stays, and so does every transaction that none of them waits for,
with the answer it may hold (R1, R3, R57, R74, R87 to R89, R94). The model's choices: time counts in ticks of 100 µs,
and an expiry before the limit is ignored (log entry 3); claims are settled by CLAIM_GRANT (log entry 8); a
through-write that SRST left running goes on (log entry 11), and a read it left unanswered and then abandoned ends (log
entry 30); a READ's answer has as many zero bytes as its size (log entry 12). -/
def Obligations.GrantWaitExpiryAnswersUnavailable : Prop :=
  ∀ s : State, s.pins.porst = false →
    let writes := fun (p : Port) (serial : Nat) =>
      (∃ x ∈ s.path.throughs, x.port = some p ∧ x.serial = serial)
        ∨ (∃ w ∈ s.buffer.waiting, w.port = p ∧ w.serial = serial)
    let awaited := fun (p : Port) (serial : Nat) =>
      (∃ r ∈ s.path.reads, r.answered = true ∧ r.port = p ∧ r.serial = serial) ∨ writes p serial
    (grantExpired s = true ↔
      s.link.work ≠ [] ∧ s.pins.agnt = false ∧ s.link.unavailable = false ∧ s.metaCtl.phase.starting = false
        ∧ s.link.limit ≠ 0 ∧ s.link.limit * 10 ≤ s.link.waitTicks)
      ∧ (grantExpired s = false → exec .grantWaitExpiry s = .next s)
      ∧ (grantExpired s = true →
        ∃ v, exec .grantWaitExpiry s = .next (settle v) ∧ Keeps [.path, .buffer, .link, .events] s v
          ∧ v.events = s.events.post .unavailable ∧ v.buffer = { s.buffer with waiting := [] }
          ∧ v.link =
            { s.link with unavailable := true, waitTicks := 0, work := v.link.work, claims := v.link.claims }
          ∧ Withdrawn s.path.reads (s.path.throughs.filter fun x => x.port.isSome && !x.listed) s v
          ∧ v.path =
            { s.path with queueA := v.path.queueA, queueB := v.path.queueB, reads := [], throughs := v.path.throughs }
          ∧ (∀ x ∈ v.path.throughs, x.port = none)
          ∧ ((s.path.throughs.map (·.serial)).Nodup →
            v.path.throughs =
              (s.path.throughs.filter fun x => x.port.isNone || x.listed).map fun x => { x with port := none })
          ∧ (∀ p, (queueOf v p).map (fun t => (t.serial, t.tx)) = (queueOf s p).map (fun t => (t.serial, t.tx)))
          ∧ (∀ p, ∀ t ∈ queueOf v p,
            (writes p t.serial → t.stand = .decided { code := .unavailable, data := [] })
              ∧ (awaited p t.serial → ¬writes p t.serial →
                ∃ r ∈ s.path.reads, r.answered = true ∧ r.port = p ∧ r.serial = t.serial
                  ∧ t.stand = .decided { code := .unavailable, data := List.replicate r.size 0#8 }))
          ∧ (∀ (p : Port) (i : Nat) (t : Taken), (queueOf s p)[i]? = some t → ¬awaited p t.serial →
            (queueOf v p)[i]? = some t))

/-- The settle timer's expiry in READ_READY passes the phase to REPAIRING with PHASE_CHANGE posted, stops the timer and
places the repair program of the first line of the list, unless one is outstanding; with an empty list the phase goes on
at once to FULL_READY, with PHASE_CHANGE posted again. At other times it changes nothing. Work that READ_READY cannot
serve, an eligible entry or a pending program, ends it in the same way, at every event after which the part settles;
what was pending, in flight or claimed stays, and the settling changes nothing else but the grant wait timer, which
stops when its condition ends (R59, R87, R157, R166, R167). The model's choices: time counts in ticks of 100 µs, and an
expiry before 20,000 of them is ignored (log entry 3); which entries are eligible (log entry 8); and the grant wait is
judged once, at the end of the step (log entry 31). -/
def Obligations.ReadReadyEndsInTheRepair : Prop :=
  let entered := fun (s : State) =>
    ({ s with
       metaCtl := { s.metaCtl with phase := .repairing, settleTicks := none }
       events := s.events.post .phaseChange } : State)
  let begun := fun (s : State) =>
    match s.metaCtl.repair with
    | [] =>
      ({ s with
         metaCtl := { phase := .fullReady, repair := [], settleTicks := none }
         events := (s.events.post .phaseChange).post .phaseChange } : State)
    | l :: _ => if repairOutstanding s then entered s else requestMeta l .repair (entered s)
  let timed := fun (v : State) =>
    ({ v with link := { v.link with waitTicks := if grantWait v then v.link.waitTicks else 0 } } : State)
  (∀ s : State,
    let still := s.metaCtl.phase ≠ .readReady
      ∨ ((∀ e ∈ s.buffer.entries, eligible s e = false) ∧ ∀ o ∈ s.link.work, o.isProgram = false)
    (still → settle s = timed s)
      ∧ (¬still → settle s = timed (begun s))
      ∧ (grantWait s = true ↔
        s.link.work ≠ [] ∧ s.pins.agnt = false ∧ s.link.unavailable = false ∧ s.metaCtl.phase.starting = false)
      ∧ (∀ e : SystemEntry,
        eligible s e = true ↔
          e.state = .pending ∧ (∀ x ∈ s.buffer.entries, x.line = e.line → x.state ≠ .draining)
            ∧ claimRecord s e.line = { holders := .shared [], waiting := [] })
      ∧ (repairOutstanding s = true ↔
        ∃ o, (o ∈ s.link.work ∨ s.link.inFlight = some o)
          ∧ ∃ l askers, o.purpose = .metaProgram l askers ∧ MetaAsker.repair ∈ askers)
      ∧ ∀ l, (∀ o ∈ s.link.work, o.issued = false → ∀ as, o.purpose ≠ .metaProgram l as) →
        requestMeta l .repair s =
          { s with
            link :=
              { s.link with
                work :=
                  s.link.work
                    ++ [{ purpose := .metaProgram l [.repair], arrayLine := metaArrayLine s l, action := .compose
                          first := false, issued := false }] } })
  ∧ ∀ s : State, s.pins.porst = false →
    let due := s.metaCtl.phase = .readReady ∧ ∃ n, s.metaCtl.settleTicks = some n ∧ 20000 ≤ n
    (¬due → exec .settleTimerExpiry s = .next s)
      ∧ (due → exec .settleTimerExpiry s = .next (begun s))
      ∧ (due → s.metaCtl.repair = [] →
        exec .settleTimerExpiry s =
          .next
            { s with
              metaCtl := { phase := .fullReady, repair := [], settleTicks := none }
              events := (s.events.post .phaseChange).post .phaseChange })
      ∧ (due → ∀ l rest, s.metaCtl.repair = l :: rest → repairOutstanding s = false →
        exec .settleTimerExpiry s =
          .next
            (requestMeta l .repair
              { s with
                metaCtl := { s.metaCtl with phase := .repairing, settleTicks := none }
                events := s.events.post .phaseChange }))

/-- A patrol expiry while a read is outstanding, out of FULL_READY or under PWARN restarts the timer alone; any other
passes over the EXCLUDED and POISONED lines from the cursor, places a patrol read of the first line that remains, and
ends the pass when none is left after it (R43, R138, R139). That time counts in ticks of 100 µs, and that an expiry
before the interval is ignored, is the model's choice (log entry 3). -/
def Obligations.PatrolStepsReadTheNextLine : Prop :=
  ∀ s : State, s.pins.porst = false →
    let p := s.health.patrol
    let held := p.outstanding.isSome = true ∨ s.metaCtl.phase ≠ .fullReady ∨ s.pins.pwarn = true
    let ended := fun q : Patrol =>
      { q with
        passes := (q.passes + 1) % 65536, cursor := 0
        mode := if q.mode = .singlePass then .stopped else q.mode }
    let read := fun line =>
      ({ purpose := .patrolRead line, arrayLine := mappedLine s line, action := .read, first := false
         issued := false } : ArrayOp)
    (∀ l, passedOver s l = true ↔ (lineClass s l).patrol = .excluded ∨ dataState s l = .poisoned)
      ∧ (p.mode = .stopped ∨ p.ticks < p.interval → exec .patrolTimerExpiry s = .next s)
      ∧ (p.mode ≠ .stopped → p.interval ≤ p.ticks → held →
        exec .patrolTimerExpiry s = .next { s with health := { s.health with patrol := { p with ticks := 0 } } })
      ∧ (p.mode ≠ .stopped → p.interval ≤ p.ticks → ¬held →
        ((∀ l, p.cursor ≤ l → l < s.fence.uNative → passedOver s l = true) →
          exec .patrolTimerExpiry s =
            .next
              { s with
                health := { s.health with patrol := ended { p with ticks := 0, since := 0 } }
                events := s.events.post .patrolPass })
          ∧ ∀ line, p.cursor ≤ line → line < s.fence.uNative → passedOver s line = false →
            (∀ l, p.cursor ≤ l → l < line → passedOver s l = true) →
            let q := { p with ticks := 0, since := 0, cursor := line + 1, outstanding := some line }
            (line + 1 < s.fence.uNative →
              exec .patrolTimerExpiry s =
                .next
                  { s with
                    health := { s.health with patrol := q }
                    link := { s.link with work := s.link.work ++ [read line] } })
              ∧ (line + 1 = s.fence.uNative →
                exec .patrolTimerExpiry s =
                  .next
                    { s with
                      health := { s.health with patrol := ended q }
                      link := { s.link with work := s.link.work ++ [read line] }
                      events := s.events.post .patrolPass }))

/-- With the port free and AGNT asserted, the operation issued is a pending, issuable one, and no issuable operation is
of an earlier work kind: METADATA, CONTINUATION, URGENT_DRAIN, SYSTEM_READ, THROUGH_WRITE, DRAIN, RELOCATION, PATROL.
LOADING issues loading reads alone, FORMATTING formatting programs, READ_READY no programs, REPAIRING and FULL_READY
everything. A drain's first operation is urgent at 8 or fewer free system entries, under PWARN, or for a target entry.
Within its kind it is the first in the pending work, where abandoned operations stand ahead and system reads stand by
their taking, and for through-writes an abandoned one, or else the first granted. It leaves the pending work and is in
flight. A patrol read is resolved to its mapped line there, and a metadata program composed there: an image line of its
four slot records, settings lines of the header's fields and of the stored copies, and a formatting program of FREE
records and format defaults (R26, R52, R68, R82, R85, R96, R97, R98, R140, R155 to R157, R164). That a line's contents
are structured fields, and that a header so composed stands for one with the format marker, is the model's choice (log
entry 7). -/
def Obligations.ArrayIssueFollowsTheWorkOrder : Prop :=
  workOrder =
    [.metadata, .continuation, .urgentDrain, .systemRead, .throughWrite, .drain, .relocation, .patrol]
  ∧ (∀ (s : State) (o : ArrayOp),
    let capacity :=
      match s.mgmt.busy with
      | some (.reserve n) => min (32 - s.buffer.reserve) (32 - n)
      | _ => 32 - s.buffer.reserve
    let of := fun w => o.purpose = .mergeRead w ∨ o.purpose = .mappedProgram w ∨ o.purpose = .storageProgram w
      ∨ o.purpose = .verifyRead w
    (issuable s o = true ↔
      (s.metaCtl.phase = .loading ∧ ∃ l, o.purpose = .loadRead l)
        ∨ (s.metaCtl.phase = .formatting ∧ ∃ n, o.purpose = .formatProgram n)
        ∨ (s.metaCtl.phase = .readReady ∧ o.action = .read)
        ∨ s.metaCtl.phase = .repairing ∨ s.metaCtl.phase = .fullReady)
      ∧ (∀ w, o.purpose.writer = some w ↔ of w)
      ∧ ((∃ l, o.purpose = .loadRead l) ∨ (∃ l k, o.purpose = .metaProgram l k) ∨ (∃ n, o.purpose = .formatProgram n) →
        o.kind s = .metadata)
      ∧ (o.purpose = .spareProgram → o.kind s = .continuation)
      ∧ (∀ n, o.purpose = .systemRead n → o.kind s = .systemRead)
      ∧ (∀ l, o.purpose = .jobRead l → o.kind s = .relocation)
      ∧ (∀ l, o.purpose = .patrolRead l → o.kind s = .patrol)
      ∧ (∀ w, of w → o.first = false → o.kind s = .continuation)
      ∧ (∀ n, of (.through n) → o.first = true → o.kind s = .throughWrite)
      ∧ (of .drain → o.first = true → o.kind s = if drainUrgent s = true then .urgentDrain else .drain)
      ∧ (drainUrgent s = true ↔
        capacity - s.buffer.entries.length ≤ 8 ∨ s.pins.pwarn = true
          ∨ ∃ e, s.buffer.entries.find? (fun x => decide (x.state = .draining)) = some e ∧ e.target = true))
  ∧ ∀ s : State, s.pins.porst = false →
    (s.link.inFlight.isSome = true ∨ s.pins.agnt = false ∨ (∀ o ∈ s.link.work, issuable s o = false) →
      exec .arrayIssue s = .next s)
      ∧ (s.link.inFlight = none → s.pins.agnt = true → (∃ o ∈ s.link.work, issuable s o = true) →
        ∃ o u, exec .arrayIssue s = .next u ∧ o ∈ s.link.work ∧ issuable s o = true
          ∧ (∀ x ∈ s.link.work, issuable s x = true → workOrder.idxOf (o.kind s) ≤ workOrder.idxOf (x.kind s))
          ∧ (o.kind s ≠ .throughWrite →
            ∃ before after, s.link.work = before ++ o :: after
              ∧ ∀ x ∈ before, issuable s x = true → x.kind s ≠ o.kind s)
          ∧ (o.kind s = .throughWrite →
            let offered := fun (x : ArrayOp) => x ∈ s.link.work ∧ issuable s x = true ∧ x.kind s = .throughWrite
            ((∃ x, offered x ∧ x.issued = true) → o.issued = true)
              ∧ ((∀ x, offered x → x.issued = false) →
                ∀ before t after, s.path.throughs = before ++ t :: after →
                  (∃ x, offered x ∧ x.purpose.writer = some (.through t.serial)) →
                  (∀ b ∈ before, ¬∃ x, offered x ∧ x.purpose.writer = some (.through b.serial)) →
                  o.purpose.writer = some (.through t.serial)))
          ∧ Keeps [.link, .path] s u
          ∧ u.link = { s.link with work := s.link.work.erase o, inFlight := some (atIssue s o) }
          ∧ (atIssue s o).purpose = o.purpose ∧ (atIssue s o).issued = true ∧ (atIssue s o).first = o.first
          ∧ (∀ line, o.purpose = .patrolRead line → (atIssue s o).arrayLine = mappedLine s line)
          ∧ ((∀ line, o.purpose ≠ .patrolRead line) → (atIssue s o).arrayLine = o.arrayLine)
          ∧ (o.action ≠ .compose → (atIssue s o).action = o.action)
          ∧ (∀ t k, o.purpose = .metaProgram t k → o.action = .compose →
            (atIssue s o).action = .program (composeLine s t))
          ∧ (∀ n, o.purpose = .formatProgram n → o.action = .compose →
            (atIssue s o).action = .program (formatContent s n))
          ∧ (∀ n, o.purpose.writer = some (.through n) →
            u.path =
              { s.path with
                throughs := s.path.throughs.map fun x => if x.serial = n then { x with issued := true } else x })
          ∧ ((∀ n, o.purpose.writer ≠ some (.through n)) → u.path = s.path))
      ∧ (∀ line,
        (∀ e, remapEntry s line = some e → mappedLine s line = s.fence.uNative + e.slot)
          ∧ (remapEntry s line = none → mappedLine s line = line))
      ∧ (∀ k,
        composeLine s (.image k) =
          .image [slotRecord s (4 * k), slotRecord s (4 * k + 1), slotRecord s (4 * k + 2), slotRecord s (4 * k + 3)])
      ∧ composeLine s (.settings 0) = .header s.pins.geom s.fence.stored s.fence.lockAtStart s.fence.retain
      ∧ composeLine s (.settings 1) = .classes s.tables.storedClasses
      ∧ (∀ j, 2 ≤ j → composeLine s (.settings j) = .regions ((s.tables.storedRegions.drop (4 * (j - 2))).take 4))
      ∧ (∀ n,
        formatContent s n =
          if n < 1024 then .image [.free, .free, .free, .free]
          else if n = 1024 then .classes (List.replicate 4 classDefault)
          else if n < 1029 then .regions (List.replicate 4 regionDefault)
          else .header s.pins.geom s.fence.uNative false false)
      ∧ ∀ (op : ArrayOp) (n : Nat) (work : List ArrayOp),
        ∃ before after, work = before ++ after ∧ insertRead op n work = before ++ op :: after
          ∧ (∀ x ∈ before, ∀ m, x.purpose = .systemRead m → x.issued = false → m ≤ n)
          ∧ ∀ x ∈ after.head?, x.issued = false ∧ ∃ m, n < m ∧ x.purpose = .systemRead m

/-! ### Completions of array operations -/

/-- A system read that completes is answered POISON when UNCORRECTABLE and otherwise OK with the snapshot's bytes where
it covers them and the array's elsewhere, unless SRST has discarded it; its claim is released, and the Media Health Unit
gets the result: an offer, a recovered candidate, or a relocation need when the corrected bits reach the threshold of
the line's class, which OFF never is (R1, R6, R18, R44, R94, R124, R126). The number of zero bytes of a POISON answer is
the model's reading (log entry 12). -/
def Obligations.SystemReadsAnswerByEccStatus : Prop :=
  (∀ (s : State) (line : Nat) (ecc : Ecc),
    corrected s line ecc = true ↔ ∃ k n, ecc = .corrected k ∧ (lineClass s line).threshold = .bits n ∧ n ≤ k)
  ∧ ∀ (ecc : Ecc) (data : LineData) (r : SystemRead) (s : State), dueFor s (.systemRead r.serial) →
    readOf s r.serial = some r →
    let response : Response :=
      if ecc = .uncorrectable then { code := .poison, data := List.replicate r.size 0#8 }
      else { code := .ok, data := slice (overlay r.covered r.snapshot data) r.offset r.size }
    let path := if r.answered then restand r.port r.serial (.decided response) s.path else s.path
    ∃ w,
      exec (.systemReadComplete ecc data) s =
        .next
          (settle
            (if ecc = .uncorrectable then offer r.line .read w
             else if isCandidate s r.line then need r.line .candidateRecovered (removeCandidate r.line w)
             else if corrected s r.line ecc then need r.line .readCorrected w
             else w))
        ∧ Keeps [.path, .link] s w
        ∧ w.path = { path with reads := s.path.reads.filter fun x => x.serial != r.serial }
        ∧ w.link = { s.link with inFlight := none, claims := w.link.claims }
        ∧ claimRecord w r.line = withoutClaimant (.read r.serial) (claimRecord s r.line)
        ∧ ∀ l, l ≠ r.line → claimRecord w l = claimRecord s l

/-- An offered line that is neither a candidate nor in a reassign with no data nor in a job in flight joins the
candidate list and leaves the relocation queue, or finds the list full and is given a reassign with no data, lost at a
full no-data queue. A relocation need queues one job for a line that has none and is no candidate, or is dropped at a
full queue (R107, R123 to R125, R129, R130). That the offer of a line in a job in flight is dropped is the model's
reading (log entry 29), as is the one report of a lost candidate (log entry 13). -/
def Obligations.OffersAndNeedsKeepOneEntryPerLine : Prop :=
  (∀ (line : Nat) (source : Source) (s : State),
    let u := offer line source s
    let queue := s.health.queue.filter fun j => j.line != line
    let present := isCandidate s line || noDataPresent s line || jobInFlight s line
    (present = true → u = s)
      ∧ (present = false → s.health.candidates.length < 32 →
        Keeps [.health, .events] s u
          ∧ u.health =
            { s.health with
              queue := queue, candidates := s.health.candidates ++ [{ line := line, source := source }] }
          ∧ u.events =
            (writeIncident
              { kind := .candidateAdded, line := some line, port := none
                detail := some (match source with | .read => 0#8 | .patrol => 1#8 | .relocation => 2#8), index := none }
              (post .candidateAdded s)).events)
      ∧ (present = false → 32 ≤ s.health.candidates.length → s.remap.noData.length < 16 →
        u =
          { s with
            health := { s.health with queue := queue }
            remap := { s.remap with noData := s.remap.noData ++ [{ line := line, origin := .candidateOverflow }] } })
      ∧ (present = false → 32 ≤ s.health.candidates.length → 16 ≤ s.remap.noData.length →
        Keeps [.health, .events] s u ∧ u.health = { s.health with queue := queue }
          ∧ u.events =
            (writeIncident { kind := .candidateLost, line := some line, port := none, detail := none, index := none }
              (post .candidateLost s)).events))
    ∧ ∀ (line : Nat) (reason : Reason) (s : State),
      let present := jobQueued s line || jobInFlight s line || isCandidate s line
      (present = true → need line reason s = s)
        ∧ (present = false → s.health.queue.length < 16 →
          need line reason s =
            { s with health := { s.health with queue := s.health.queue ++ [{ line := line, reason := reason }] } })
        ∧ (present = false → 16 ≤ s.health.queue.length →
          need line reason s = { s with events := s.events.post .relocationDropped })

/-- A patrol read that completes is no longer outstanding; unless its line is in a job, POISONED or a candidate, an
UNCORRECTABLE result offers the line and a CORRECTED one at or above the threshold of the line's class, which OFF never
is, gives a relocation need. A job's source read stages its data and asks for a reassign with data, or ends the job with
its claim and offers the line (R44, R75, R94, R133, R134, R140). -/
def Obligations.PatrolAndSourceReadsReport : Prop :=
  ∀ s : State,
    (∀ (line : Nat) (ecc : Ecc),
      corrected s line ecc = true ↔ ∃ k n, ecc = .corrected k ∧ (lineClass s line).threshold = .bits n ∧ n ≤ k)
    ∧ (∀ (ecc : Ecc) (line : Nat), dueFor s (.patrolRead line) →
      let w : State :=
        { portFreed s with health := { s.health with patrol := { s.health.patrol with outstanding := none } } }
      exec (.patrolReadComplete ecc) s =
        .next
          (if jobInFlight s line = true ∨ dataState s line = .poisoned ∨ isCandidate s line = true then w
           else if ecc = .uncorrectable then offer line .patrol w
           else if corrected s line ecc then need line .patrolCorrected w
           else w))
      ∧ ∀ (ecc : Ecc) (data : LineData) (line : Nat) (j : Job), dueFor s (.jobRead line) → jobOf s line = some j →
        (ecc ≠ .uncorrectable →
          exec (.relocationSourceReadComplete ecc data) s =
            .next
              { portFreed s with
                health :=
                  { s.health with
                    jobs := s.health.jobs.map fun x => if x.line = line then { x with staged := some data } else x }
                remap :=
                  { s.remap with
                    workList :=
                      s.remap.workList
                        ++ [.reassign (.job line) line data j.known
                              (if j.reason = .retireCommand then .retireCommand else .relocated)] } })
          ∧ (ecc = .uncorrectable →
            ∃ w, exec (.relocationSourceReadComplete ecc data) s = .next (offer line .relocation w)
              ∧ Keeps [.health, .link] s w
              ∧ w.health = { s.health with jobs := s.health.jobs.filter fun x => x.line != line }
              ∧ w.link = { s.link with inFlight := none, claims := w.link.claims }
              ∧ claimRecord w line = withoutClaimant (.job line) (claimRecord s line)
              ∧ ∀ l, l ≠ line → claimRecord w l = claimRecord s l)

/-- The completions of a drain's or through-write's own operations: a readable merge forms the drain line and its
program, an unreadable one asks for merge-fail storage and ends the candidacy; a good program is verified on a
candidate, ends the course on an INTACT line and is recorded on any other; a failed program or an unclean verify asks
for a reassign with the full drain line (R61 to R65, R73, R106, R116, R127). -/
def Obligations.CoursesAdvanceByCompletions : Prop :=
  ∀ (w : Writer) (c : Course) (s : State), courseOf s w = some c →
    let f := portFreed s
    let retired : State :=
      { f with health := { s.health with candidates := s.health.candidates.filter fun x => x.line != c.line } }
    let asks := fun origin => joinWork (.reassign (.writer w) c.line c.drainLine c.known origin) f
    let ends := fun v => if c.view = .intact then endCourse w .programmed v else joinWork (.recording w c.line c.known) v
    (∀ ecc data, dueFor s (.mergeRead w) →
      (ecc ≠ .uncorrectable →
        let formed : LineData := overlay c.mask c.bytes data
        let known : Mask := match c.view with | .intact => Mask.full | .partialOf m => m ||| c.mask | .poisoned => c.mask
        exec (.mergeReadComplete ecc data) s =
          .next
            (placeOp
              { purpose := .mappedProgram w, arrayLine := c.mapped, action := .program (.bytes formed), first := false
                issued := false }
              (setCourse w { c with drainLine := formed, known := known } f)))
        ∧ (ecc = .uncorrectable →
          exec (.mergeReadComplete ecc data) s =
            .next (joinWork (.storage w c.line (overlay c.mask c.bytes zeroLine) c.mask) retired)))
      ∧ (dueFor s (.mappedProgram w) →
        exec (.drainProgramComplete false) s = .next (asks .programFail)
          ∧ (isCandidate s c.line = true →
            exec (.drainProgramComplete true) s = .next (placeOp (plainRead (.verifyRead w) c.mapped) f))
          ∧ (isCandidate s c.line = false → exec (.drainProgramComplete true) s = .next (ends f)))
      ∧ (∀ ecc, dueFor s (.verifyRead w) →
        exec (.verifyReadComplete ecc) s = .next (if ecc = .clean then ends retired else asks .candidateFail))

/-! ### The Remap Unit -/

/-- A reassign at the head of the work list fails on the metadata fault, then on no FREE slot; else it takes the lowest
FREE slot: a reassign with data programs the spare, one without data goes to its IN_USE record, whose generation is one
more than the line's entry's, modulo 256, or 0 with no entry. A spare that was programmed leads to the IN_USE record,
and one that failed is DEAD, with SPARES_LOW posted when the free count passes from 65 to 64 and SPARES_EXHAUSTED from 1
to 0, and its record is programmed, unless the fault is set (R102, R103, R104, R105, R108, R109, R112, R113). -/
def Obligations.ReassignsTakeTheLowestFreeSlot : Prop :=
  ∀ s : State, s.pins.porst = false →
    let image := fun slot v => requestMeta (.image (slot / 4)) .remap v
    let recorded := fun slot line state origin (v : State) =>
      ({ v with
         remap :=
           { v.remap with
             serving := some (.inUse slot)
             records := sparseSet v.remap.records slot (.inUse line state origin (nextGeneration v line)) } } : State)
    (∀ line,
      (∀ e, remapEntry s line = some e → nextGeneration s line = e.generation + 1#8)
        ∧ (remapEntry s line = none → nextGeneration s line = 0#8))
      ∧ (∀ slot,
        (poolState s slot = .dead ↔ slot ∈ s.remap.dead)
          ∧ (poolState s slot = .free ↔ slot ∉ s.remap.dead ∧ ∀ x ∈ s.remap.table, x.2.slot ≠ slot))
      ∧ (s.remap.serving.isSome = true ∨ s.remap.workList = []
      ∨ (∃ w line data mask rest, s.remap.workList = .storage w line data mask :: rest)
      ∨ (∃ w line known rest, s.remap.workList = .recording w line known :: rest) →
      exec .reassignServe s = .next (settle s))
      ∧ (∀ r rest, s.remap.serving = none → s.remap.workList = r :: rest →
        (∃ who line data known origin, r = .reassign who line data known origin) ∨ (∃ line origin, r = .noData line origin) →
        (s.remap.fault = true → exec .reassignServe s = .next (settle (conclude .metadata s)))
          ∧ (s.remap.fault = false → (∀ slot, slot < 4096 → poolState s slot ≠ .free) →
            exec .reassignServe s = .next (settle (conclude .noSpare s)))
          ∧ ∀ slot, s.remap.fault = false → slot < 4096 → poolState s slot = .free →
              (∀ n, n < slot → poolState s n ≠ .free) →
              (∀ who line data known origin, r = .reassign who line data known origin →
                exec .reassignServe s =
                  .next
                    (settle
                      (placeOp
                        { purpose := .spareProgram, arrayLine := s.fence.uNative + slot
                          action := .program (.bytes data), first := false, issued := false }
                        { s with remap := { s.remap with serving := some (.spare slot) } })))
                ∧ (∀ line origin, r = .noData line origin →
                  exec .reassignServe s = .next (settle (image slot (recorded slot line .poisoned origin s)))))
      ∧ ∀ slot who line data known origin rest, dueFor s .spareProgram → s.remap.serving = some (.spare slot) →
          s.remap.workList = .reassign who line data known origin :: rest →
          let f := portFreed s
          let dead := killSlot slot f
          (s.remap.fault = true →
            exec (.spareProgramComplete true) s = .next (conclude .metadata f)
              ∧ exec (.spareProgramComplete false) s = .next (conclude .metadata dead))
            ∧ (s.remap.fault = false →
              exec (.spareProgramComplete true) s =
                  .next
                    (image slot (recorded slot line (if known = Mask.full then .intact else .partialOf known) origin f))
                ∧ exec (.spareProgramComplete false) s =
                  .next
                    (image slot { dead with remap := { dead.remap with serving := some (.deadRecord slot) } }))
            ∧ Keeps [.link, .remap, .events] s dead
            ∧ dead.remap =
              { s.remap with
                dead := insertNat s.remap.dead slot, records := sparseSet s.remap.records slot .dead }
            ∧ freeCount s = 4096 - s.remap.dead.length - s.remap.table.length
            ∧ dead.events =
              (if freeCount s = 65 ∧ freeCount dead = 64 then s.events.post .sparesLow
               else if freeCount s = 1 ∧ freeCount dead = 0 then s.events.post .sparesExhausted
               else s.events)

/-- When the program of an IN_USE record completes PROGRAM_OK the line's entry goes live with the next generation, one
more than the former entry's modulo 256 or 0 with none: REMAPPED is posted and recorded with the code of its origin,
with SPARES_LOW at a free count that passes from 65 to 64 and SPARES_EXHAUSTED from 1 to 0, and a queued job of the line
removed; with no former slot the reassign has succeeded, and a former slot is DEAD in pool and record, its program the
last step, which changes the outcome no more. When it fails, the fault is set, the trial slot is DEAD and the reassign
fails. After a dead spare's record the reassign is judged again, or fails with it; a program withdrawn under the fault
ends the reassign, with a trial slot FREE again (R102 to R104, R108 to R111, R113, R119, R130, R157, R172). That the new
judgement falls in the same step is the model's reading (log entry 21). -/
def Obligations.EntriesGoLiveWithTheirRecord : Prop :=
  let crossed := fun (before after : Nat) (e : Events) =>
    if before = 65 ∧ after = 64 then e.post .sparesLow
    else if before = 1 ∧ after = 0 then e.post .sparesExhausted
    else e
  let lives := fun (line slot : Nat) (state : DataState) (origin : Origin) (f u : State) =>
    let table :=
      sparseSet f.remap.table line { slot := slot, data := state, origin := origin, generation := nextGeneration f line }
    let live := fun v : State =>
      Keeps [.remap, .health, .events] f v
        ∧ v.health = { f.health with queue := f.health.queue.filter fun j => j.line != line }
        ∧ v.events =
          (writeIncident
            { kind := .remapped, line := some line, port := none, detail := some (BitVec.ofNat 8 (originCode origin))
              index := some slot }
            { f with events := (crossed (freeCount f) (freeCount v) f.events).post .remapped }).events
    (remapEntry f line = none → ∃ v, u = conclude .succeeded v ∧ live v ∧ v.remap = { f.remap with table := table })
      ∧ ∀ old, remapEntry f line = some old →
        ∃ v, live v
          ∧ v.remap =
            { f.remap with
              table := table, dead := insertNat f.remap.dead old.slot
              records := sparseSet f.remap.records old.slot .dead }
          ∧ u =
            if f.remap.fault then conclude .succeeded v
            else
              requestMeta (.image (old.slot / 4)) .remap
                { v with remap := { v.remap with serving := some (.oldSlot old.slot) } }
  (∀ (s : State) (line : Nat),
    (∀ e, remapEntry s line = some e → nextGeneration s line = e.generation + 1#8)
      ∧ (remapEntry s line = none → nextGeneration s line = 0#8))
  ∧ ([.programFail, .relocated, .candidateFail, .candidateOverflow, .mergeFail, .retireCommand] : List Origin).map
      originCode = [0, 1, 2, 3, 4, 5]
  ∧ (∀ (s : State) (k slot : Nat) (r : Request) (rest : List Request) (line : Nat) (state : DataState) (origin : Origin),
    dueFor s (.metaProgram (.image k) [.remap]) → s.metaCtl.phase ≠ .repairing → s.remap.serving = some (.inUse slot) →
    s.remap.workList = r :: rest → r.record = some (line, state, origin) →
    (∃ u, exec (.imageProgramComplete true) s = .next u
      ∧ lives line slot state origin (unlistRepair (.image k) (portFreed s)) u)
      ∧ (s.remap.fault = false → s.link.work.all (fun o => !o.withdrawable) = true →
        ∃ v, exec (.imageProgramComplete false) s = .next (conclude .metadata v) ∧ Keeps [.link, .remap, .events] s v
          ∧ v.link = { s.link with inFlight := none }
          ∧ v.remap =
            { s.remap with
              fault := true, dead := insertNat s.remap.dead slot, records := sparseSet s.remap.records slot .dead }))
    ∧ ∀ (s : State) (l : MetaLine) (slot : Nat),
      (∀ r rest line state origin, s.remap.serving = some (.inUse slot) → s.remap.workList = r :: rest →
        r.record = some (line, state, origin) → lives line slot state origin s (deliver true .remap s))
        ∧ (s.remap.serving = some (.inUse slot) →
          deliver false .remap s = conclude .metadata (killSlot slot s)
            ∧ withdrawn l .remap s =
              conclude .metadata { s with remap := { s.remap with records := sparseDel s.remap.records slot } })
        ∧ (∀ dead, s.remap.serving = some (.deadRecord dead) →
          deliver false .remap s = conclude .metadata s ∧ withdrawn l .remap s = conclude .metadata s
            ∧ (s.remap.fault = true → deliver true .remap s = conclude .metadata s)
            ∧ (s.remap.fault = false → (∀ n, n < 4096 → poolState s n ≠ .free) →
              deliver true .remap s = conclude .noSpare s)
            ∧ ∀ who line data known origin rest, s.remap.fault = false →
              s.remap.workList = .reassign who line data known origin :: rest → slot < 4096 → poolState s slot = .free →
              (∀ n, n < slot → poolState s n ≠ .free) →
              deliver true .remap s =
                placeOp
                  { purpose := .spareProgram, arrayLine := s.fence.uNative + slot, action := .program (.bytes data)
                    first := false, issued := false }
                  { s with remap := { s.remap with serving := some (.spare slot) } })
        ∧ ∀ old ok, s.remap.serving = some (.oldSlot old) →
          deliver ok .remap s = conclude .succeeded s ∧ withdrawn l .remap s = conclude .succeeded s

/-- A request of the work list that has its outcome leaves the list: a drain or through-write ends, OK or lost by the
failure's cause, and a candidate whose line was moved by it leaves the list; a relocation job ends; a reassign with no
data releases its claim and, failed, loses its candidate (R63, R64, R66, R74, R106, R107, R125, R134). -/
def Obligations.OutcomesReachTheirRequesters : Prop :=
  ∀ (v : Verdict) (r : Request) (rest : List Request) (s : State), s.remap.workList = r :: rest →
    let f : State := { s with remap := { s.remap with workList := rest, serving := none } }
    let ending : Ending :=
      match v with | .succeeded => .programmed | .noSpare => .lost .noSpare | .metadata => .lost .metadata
    (∀ w line data known origin, r = .reassign (.writer w) line data known origin →
      conclude v s =
        endCourse w ending (if v = .succeeded ∧ origin ≠ .mergeFail then removeCandidate line f else f))
      ∧ (∀ j line data known origin, r = .reassign (.job j) line data known origin →
        Keeps [.remap, .health, .link] s (conclude v s) ∧ (conclude v s).remap = f.remap
          ∧ (conclude v s).health = { s.health with jobs := s.health.jobs.filter fun x => x.line != j }
          ∧ (conclude v s).link = { s.link with claims := (conclude v s).link.claims }
          ∧ claimRecord (conclude v s) j = withoutClaimant (.job j) (claimRecord s j)
          ∧ ∀ l, l ≠ j → claimRecord (conclude v s) l = claimRecord s l)
      ∧ (∀ w line data mask, r = .storage w line data mask → conclude v s = endCourse w ending f)
      ∧ (∀ w line known, r = .recording w line known → conclude v s = endCourse w .programmed f)
      ∧ (∀ line origin, r = .noData line origin →
        Keeps [.remap, .link, .events] s (conclude v s) ∧ (conclude v s).remap = f.remap
          ∧ (conclude v s).link = { s.link with claims := (conclude v s).link.claims }
          ∧ claimRecord (conclude v s) line = withoutClaimant .noData (claimRecord s line)
          ∧ (∀ l, l ≠ line → claimRecord (conclude v s) l = claimRecord s l)
          ∧ (v = .succeeded → (conclude v s).events = s.events)
          ∧ (v ≠ .succeeded →
            (conclude v s).events =
              (writeIncident { kind := .candidateLost, line := some line, port := none, detail := none, index := none }
                (post .candidateLost s)).events))

/-- Merge-fail storage programs a POISONED line's spare unless the fault is set, and any other line goes on as a
reassign of origin MERGE_FAIL; a storage's failed program does so too, and a good one is recorded. A recording takes the
union of the masks, in the entry and the slot's record alone under the fault and else by that record's image program, at
whose completion, failure or withdrawal the entry takes it and the request, a recording or a storage, is done (R105,
R106, R113, R115, R117). That a storage goes on as a reassign judged in the same step is the model's reading (log entry
21). -/
def Obligations.StorageAndRecordingKeepTheKnownBytes : Prop :=
  ∀ (s : State) (rest : List Request), s.pins.porst = false →
    let state := fun line known =>
      let union := validMaskOf (dataState s line) ||| known
      if union = Mask.full then DataState.intact else .partialOf union
    let placed := fun line (e : RemapEntry) d (v : State) =>
      ({ v with remap := { v.remap with table := sparseSet v.remap.table line { e with data := d } } } : State)
    let noted := fun line (e : RemapEntry) d (v : State) =>
      ({ v with
         remap := { v.remap with records := sparseSet v.remap.records e.slot (.inUse line d e.origin e.generation) } } : State)
    let begun := fun line (e : RemapEntry) known (v : State) =>
      let d := state line known
      if s.remap.fault then conclude .succeeded (placed line e d (noted line e d v))
      else
        requestMeta (.image (e.slot / 4)) .remap
          { noted line e d v with
            remap := { (noted line e d v).remap with serving := some (.recording d) } }
    (∀ w line data mask, s.remap.serving = none → s.remap.workList = .storage w line data mask :: rest →
      (dataState s line = .poisoned → s.remap.fault = true →
        exec .mergeFailStorageServe s = .next (conclude .metadata s))
        ∧ (dataState s line = .poisoned → s.remap.fault = false →
          exec .mergeFailStorageServe s =
            .next
              (placeOp
                { purpose := .storageProgram w, arrayLine := mappedLine s line, action := .program (.bytes data)
                  first := true, issued := false }
                { s with remap := { s.remap with serving := some .storage } }))
        ∧ (dataState s line ≠ .poisoned →
          exec .mergeFailStorageServe s =
            .next
              (judgeReassign
                { s with remap := { s.remap with workList := .reassign (.writer w) line data mask .mergeFail :: rest } })))
      ∧ (∀ w line data mask e, dueFor s (.storageProgram w) → s.remap.workList = .storage w line data mask :: rest →
        remapEntry s line = some e →
        exec (.drainProgramComplete true) s = .next (begun line e mask (portFreed s))
          ∧ exec (.drainProgramComplete false) s =
            .next
              (judgeReassign
                { portFreed s with
                  remap :=
                    { s.remap with workList := .reassign (.writer w) line data mask .mergeFail :: rest, serving := none } }))
      ∧ (∀ w line known e, s.remap.serving = none → s.remap.workList = .recording w line known :: rest →
        remapEntry s line = some e → exec .dataStateRecordingServe s = .next (begun line e known s))
      ∧ (∀ w line known e k d, dueFor s (.metaProgram (.image k) [.remap]) → s.metaCtl.phase ≠ .repairing →
          s.remap.serving = some (.recording d) → s.remap.workList = .recording w line known :: rest →
          remapEntry s line = some e →
          exec (.imageProgramComplete true) s =
            .next (conclude .succeeded (placed line e d (unlistRepair (.image k) (portFreed s)))))
      ∧ ∀ w line e d ok l, s.remap.serving = some (.recording d) →
          (∃ known, s.remap.workList = .recording w line known :: rest)
            ∨ (∃ data mask, s.remap.workList = .storage w line data mask :: rest) →
          remapEntry s line = some e →
          deliver ok .remap s = conclude .succeeded (placed line e d s)
            ∧ withdrawn l .remap s = conclude .succeeded (placed line e d s)

/-! ### Claims and the part's own starts -/

/-- A SHARED request is granted beside SHARED holders and an EXCLUSIVE one beside none. CLAIM_GRANT grants a line's
waiting requests from the front while they can be, and each grantee takes its next step: a read is judged again, by the
line's data state and the bytes it still needs, and placed, or answered POISON and its claim released, a through-write
begins its course, a job ends on a POISONED line with its claim released or places its source read, and a reassign with
no data joins the work list (R16, R17, R73, R92 to R94, R107, R132). The number of zero bytes of a POISON answer is the
model's reading (log entry 12). -/
def Obligations.ClaimsAreGrantedFromTheFront : Prop :=
  (∀ (h : Holders) (o : Claimant),
    (h.admits .shared = true ↔ ∃ os, h = .shared os) ∧ (h.admits .exclusive = true ↔ h = .shared [])
      ∧ (∀ os, (Holders.shared os).add .shared o = .shared (os ++ [o])) ∧ h.add .exclusive o = .exclusive o
      ∧ (∀ os, (Holders.shared os).drop o = .shared (os.filter fun x => decide (x ≠ o)))
      ∧ (Holders.exclusive o).drop o = .shared [] ∧ ∀ x, x ≠ o → (Holders.exclusive x).drop o = .exclusive x)
  ∧ (∀ (s : State) (line : Nat) (asked : Mask),
    poisonedFor s line asked = true ↔
      ∃ e, remapEntry s line = some e
        ∧ (e.data = .poisoned
          ∨ ∃ valid, e.data = .partialOf valid ∧ ∃ i, asked.getLsbD i = true ∧ valid.getLsbD i = false))
  ∧ (∀ (line : Nat) (s : State), s.pins.porst = false →
    exec (.claimGrant line) s = .next (settle (grantWaiting line (claimRecord s line).waiting.length s)))
    ∧ (∀ (line n : Nat) (s : State),
      (∀ q ∈ (claimRecord s line).waiting.head?, (claimRecord s line).holders.admits q.kind = false) →
      grantWaiting line n s = s)
    ∧ (∀ (line n : Nat) (q : ClaimRequest) (rest : List ClaimRequest) (s : State),
      (claimRecord s line).waiting = q :: rest → (claimRecord s line).holders.admits q.kind = true →
      ∃ g, grantWaiting line (n + 1) s = grantWaiting line n (granteeStep q.owner g) ∧ Keeps [.link] s g
        ∧ g.link = { s.link with claims := g.link.claims }
        ∧ claimRecord g line = { holders := (claimRecord s line).holders.add q.kind q.owner, waiting := rest })
    ∧ ∀ g : State,
      (∀ r, readOf g r.serial = some r →
        let uncovered := spanMask r.offset r.size &&& ~~~r.covered
        (poisonedFor g r.line uncovered = false →
          granteeStep (.read r.serial) g =
            { g with
              link :=
                { g.link with
                  work := insertRead (plainRead (.systemRead r.serial) (mappedLine g r.line)) r.serial g.link.work } })
          ∧ (poisonedFor g r.line uncovered = true →
            let u := granteeStep (.read r.serial) g
            let answer : Response := { code := .poison, data := List.replicate r.size 0#8 }
            Keeps [.path, .link] g u
              ∧ u.path =
                { (if r.answered then restand r.port r.serial (.decided answer) g.path else g.path) with
                  reads := g.path.reads.filter fun x => x.serial != r.serial }
              ∧ u.link = { g.link with claims := u.link.claims }
              ∧ claimRecord u r.line = withoutClaimant (.read r.serial) (claimRecord g r.line)
              ∧ ∀ l, l ≠ r.line → claimRecord u l = claimRecord g l))
        ∧ (∀ n t, throughOf g n = some t →
          granteeStep (.through n) g = startCourse (.through n) t.course.line t.course.mask t.course.bytes g)
        ∧ (∀ line, dataState g line = .poisoned →
          Keeps [.health, .link] g (granteeStep (.job line) g)
            ∧ (granteeStep (.job line) g).health = { g.health with jobs := g.health.jobs.filter fun j => j.line != line }
            ∧ (granteeStep (.job line) g).link = { g.link with claims := (granteeStep (.job line) g).link.claims }
            ∧ claimRecord (granteeStep (.job line) g) line = withoutClaimant (.job line) (claimRecord g line)
            ∧ ∀ l, l ≠ line → claimRecord (granteeStep (.job line) g) l = claimRecord g l)
        ∧ (∀ line, dataState g line ≠ .poisoned →
          let known := match dataState g line with | .partialOf m => m | _ => Mask.full
          granteeStep (.job line) g =
            { g with
              health :=
                { g.health with
                  jobs := g.health.jobs.map fun j => if j.line = line then { j with known := known } else j }
              link :=
                { g.link with
                  work := g.link.work ++ [{ plainRead (.jobRead line) (mappedLine g line) with first := true }] } })
        ∧ ∀ q rest, g.remap.noData = q :: rest →
          granteeStep .noData g =
            { g with
              remap :=
                { g.remap with
                  noData := rest, noDataAsked := false, workList := g.remap.workList ++ [.noData q.line q.origin] } }

/-- In FULL_READY, with PWARN released and a staging entry free, which is while fewer jobs than the reserve are in
flight, or than the smaller of the two in a reserve wait, and not all 32 entries are in use, the job at the head of the
relocation queue starts and asks for an EXCLUSIVE claim; the request at the head of the no-data queue asks for its claim
when no other reassign with no data is in progress. Granted at once they take their next step, and else they wait; the
claims of the other lines stay (R52, R75, R78, R92, R93, R95, R107, R131). -/
def Obligations.JobsAndNoDataRequestsAskForClaims : Prop :=
  ∀ s : State, s.pins.porst = false →
    let may := s.metaCtl.phase = .fullReady ∧ s.pins.pwarn = false ∧ stagingEntryFree s = true
    let busy := s.remap.noDataAsked = true ∨ ∃ line origin, Request.noData line origin ∈ s.remap.workList
    let asked := fun line owner (v : State) =>
      Keeps [.health, .link, .remap] s v ∧ v.link = { s.link with claims := v.link.claims }
        ∧ (∀ l, l ≠ line → claimRecord v l = claimRecord s l)
        ∧ (claimFree s line .exclusive = true → claimRecord v line = { holders := .exclusive owner, waiting := [] })
        ∧ (claimFree s line .exclusive = false →
          (claimRecord v line).holders = (claimRecord s line).holders
            ∧ (claimRecord v line).waiting = (claimRecord s line).waiting ++ [{ kind := .exclusive, owner := owner }])
    let capacity :=
      match s.mgmt.busy with
      | some (.reserve n) => min s.buffer.reserve n
      | _ => s.buffer.reserve
    (stagingEntryFree s = true ↔
      s.health.jobs.length < capacity ∧ s.buffer.entries.length + s.health.jobs.length < 32)
      ∧ (¬may ∨ s.health.queue = [] → exec .relocationJobStart s = .next s)
      ∧ (∀ q rest, may → s.health.queue = q :: rest →
        ∃ v, asked q.line (.job q.line) v ∧ v.remap = s.remap
          ∧ v.health =
            { s.health with
              queue := rest
              jobs := s.health.jobs ++ [{ line := q.line, reason := q.reason, known := Mask.full, staged := none }] }
          ∧ exec .relocationJobStart s =
            .next (if claimFree s q.line .exclusive then granteeStep (.job q.line) v else v))
      ∧ (busy ∨ s.remap.noData = [] → exec .noDataClaimRequest s = .next s)
      ∧ ∀ q rest, ¬busy → s.remap.noData = q :: rest →
        ∃ v, asked q.line .noData v ∧ v.health = s.health ∧ v.remap = { s.remap with noDataAsked := true }
          ∧ exec .noDataClaimRequest s =
            .next (if claimFree s q.line .exclusive then granteeStep .noData v else v)

/-! ### Metadata programs, loading and formatting -/

/-- A settings program that completes PROGRAM_OK completes its command, or places the next line of a SAVE_SETTINGS; a
failed one sets the metadata fault, which withdraws every metadata program never issued, and completes the command
METADATA_FAULT. A repair program takes its line off the list and the next is placed, or the phase becomes FULL_READY
when none is left or the program failed. Every completion is delivered to all the requests its program served, and a
request joins a pending program of its line that was never issued (R26, R49, R50, R119, R157, R166, R167). The model's
choices: a label that does not name the program in flight is not taken (log entry 17), a placed repair program stays
(log entry 16), how a SAVE_SETTINGS ends under a fault set elsewhere (log entry 27), and requesters place their programs
before the repair does (log entry 33). -/
def Obligations.MetadataProgramsServeTheirRequests : Prop :=
  ∀ s : State,
    (∀ (j : Nat), dueFor s (.metaProgram (.settings j) [.command]) → s.metaCtl.phase ≠ .repairing →
      let f := unlistRepair (.settings j) (portFreed s)
      let done := fun r (v : State) =>
        ({ v with
           mgmt := { v.mgmt with result := r, rdata := List.replicate 8 0#32, busy := none }
           events := v.events.post .commandDone } : State)
      (s.mgmt.busy = some .header ∨ s.mgmt.busy = some (.save []) →
        exec (.settingsProgramComplete true) s = .next (done 0x01#8 f))
        ∧ (∀ next rest, s.mgmt.busy = some (.save (next :: rest)) → s.remap.fault = false →
          exec (.settingsProgramComplete true) s =
            .next (requestMeta (.settings next) .command { f with mgmt := { s.mgmt with busy := some (.save rest) } }))
        ∧ (∀ next rest, s.mgmt.busy = some (.save (next :: rest)) → s.remap.fault = true →
          exec (.settingsProgramComplete true) s = .next (done 0x09#8 f))
        ∧ (s.mgmt.busy = some .header ∨ (∃ rest, s.mgmt.busy = some (.save rest)) → s.remap.fault = false →
          s.link.work.all (fun o => !o.withdrawable) = true →
          exec (.settingsProgramComplete false) s =
            .next
              (done 0x09#8
                { portFreed s with
                  remap := { s.remap with fault := true }, events := s.events.post .metadataFault })))
      ∧ (∀ (l : MetaLine) (rest : List MetaLine), dueFor s (.metaProgram l [.repair]) → s.metaCtl.phase = .repairing →
        s.metaCtl.repair = l :: rest → l ∉ rest → s.link.work.all (fun o => !o.withdrawable) = true →
        (rest = [] →
          exec (.repairProgramComplete true) s =
            .next
              { portFreed s with
                metaCtl := { s.metaCtl with phase := .fullReady, repair := [] }
                events := s.events.post .phaseChange })
          ∧ (∀ l' rest', rest = l' :: rest' → repairOutstanding (portFreed s) = false →
            exec (.repairProgramComplete true) s =
              .next (requestMeta l' .repair { portFreed s with metaCtl := { s.metaCtl with repair := rest } }))
          ∧ (s.remap.fault = false →
            exec (.repairProgramComplete false) s =
              .next
                { portFreed s with
                  remap := { s.remap with fault := true }
                  metaCtl := { s.metaCtl with phase := .fullReady, repair := [] }
                  events := (s.events.post .metadataFault).post .phaseChange }))
      ∧ (s.remap.fault = true → setFault s = s)
      ∧ (s.remap.fault = false →
        (setFault s).remap.fault = true ∧ (∀ o ∈ (setFault s).link.work, o.withdrawable = false)
          ∧ (s.metaCtl.phase = .repairing →
            (setFault s).metaCtl = { s.metaCtl with phase := .fullReady, repair := [] })
          ∧ (s.metaCtl.phase ≠ .repairing → (setFault s).metaCtl.phase = s.metaCtl.phase))
      ∧ (∀ (l : MetaLine) (askers : List MetaAsker) (ok : Bool), dueFor s (.metaProgram l askers) →
        ((∃ j, l = .settings j) → exec (.imageProgramComplete ok) s = .next s)
          ∧ ((∃ k, l = .image k) ∨ MetaAsker.command ∉ askers → exec (.settingsProgramComplete ok) s = .next s)
          ∧ (MetaAsker.repair ∉ askers → exec (.repairProgramComplete ok) s = .next s)
          ∧ (let f := portFreed s
             let unlisted : State := { f with metaCtl := { f.metaCtl with repair := f.metaCtl.repair.filter (· ≠ l) } }
             let u :=
               advanceRepair (askers.foldl (fun v a => deliver ok a v) (if ok then unlisted else setFault f))
             ((∃ k, l = .image k) → exec (.imageProgramComplete ok) s = .next u)
               ∧ ((∃ j, l = .settings j) → MetaAsker.command ∈ askers → exec (.settingsProgramComplete ok) s = .next u)
               ∧ (MetaAsker.repair ∈ askers → exec (.repairProgramComplete ok) s = .next u)))
      ∧ (let done := fun r (v : State) =>
           ({ v with
              mgmt := { v.mgmt with result := r, rdata := List.replicate 8 0#32, busy := none }
              events := v.events.post .commandDone } : State)
         (∀ ok l, deliver ok .repair s = s
           ∧ withdrawn l .repair s =
             { s with metaCtl := { s.metaCtl with repair := s.metaCtl.repair.filter (· ≠ l) } })
           ∧ (s.mgmt.busy = some .header ∨ s.mgmt.busy = some (.save []) → deliver true .command s = done 0x01#8 s)
           ∧ (∀ next rest, s.mgmt.busy = some (.save (next :: rest)) →
             deliver true .command s =
               if s.remap.fault then done 0x09#8 s
               else requestMeta (.settings next) .command { s with mgmt := { s.mgmt with busy := some (.save rest) } })
           ∧ (∀ l, s.mgmt.busy = some .header ∨ (∃ rest, s.mgmt.busy = some (.save rest)) →
             deliver false .command s = done 0x09#8 s ∧ withdrawn l .command s = done 0x09#8 s))
      ∧ (s.remap.fault = false →
        let gone := s.link.work.filter (·.withdrawable)
        let v : State :=
          { s with
            remap := { s.remap with fault := true }
            link := { s.link with work := s.link.work.filter fun o => !o.withdrawable }
            events := s.events.post .metadataFault }
        let w := gone.foldl (fun v o => withdrawOp o v) v
        setFault s =
          if w.metaCtl.phase = .repairing then
            { w with
              metaCtl := { w.metaCtl with phase := .fullReady, repair := [] }, events := w.events.post .phaseChange }
          else w)
      ∧ (∀ o, (∀ l askers, o.purpose = .metaProgram l askers →
          withdrawOp o s = askers.foldl (fun v a => withdrawn l a v) s)
        ∧ ((∀ l askers, o.purpose ≠ .metaProgram l askers) → withdrawOp o s = s))
      ∧ (s.metaCtl.phase ≠ .repairing → advanceRepair s = s)
      ∧ (s.metaCtl.phase = .repairing → s.metaCtl.repair = [] →
        advanceRepair s =
          { s with metaCtl := { s.metaCtl with phase := .fullReady }, events := s.events.post .phaseChange })
      ∧ (∀ l rest, s.metaCtl.phase = .repairing → s.metaCtl.repair = l :: rest →
        advanceRepair s = if repairOutstanding s then s else requestMeta l .repair s)
      ∧ ∀ (l : MetaLine) (a : MetaAsker),
        ((∀ o ∈ s.link.work, o.issued = false → ∀ askers, o.purpose ≠ .metaProgram l askers) →
          requestMeta l a s =
            placeOp
              { purpose := .metaProgram l [a]
                arrayLine :=
                  s.fence.uNative + (match l with | .image k => 4096 + k | .settings j => 5120 + j)
                action := .compose, first := false, issued := false } s)
          ∧ ∀ before o after askers, s.link.work = before ++ o :: after →
            (∀ x ∈ before, x.issued = false → ∀ others, x.purpose ≠ .metaProgram l others) →
            o.issued = false → o.purpose = .metaProgram l askers →
            requestMeta l a s =
              { s with
                link :=
                  { s.link with
                    work := before ++ { o with purpose := .metaProgram l (askers ++ [a]) } :: after } }

/-- Loading: an invalid header makes the phase UNFORMATTED, a valid one gives the fence (0 or above U_native taken as
U_native), retain and lock-at-start, which locks the map, and places the read of image line 0; each image line gives its
four records, or when UNCORRECTABLE four DEAD slots, METADATA_DAMAGED and a repair, and places the next read; the last
image line ends the image's loading, with SPARES_LOW posted at 64 FREE slots or less and SPARES_EXHAUSTED at none, and
places the read of settings line 1; each settings line gives its entries to both copies of the tables, format defaults
where they are out of range, or a repair, and the last one enters READ_READY (R22, R34, R35, R48, R104, R158 to R163,
R166). The model's choices: what is read comes in structured fields (log entry 7), and a FREE or DEAD record is taken
whatever its other fields hold (log entry 14). -/
def Obligations.LoadingReadsBuildTheState : Prop :=
  ∀ s : State,
    let f := portFreed s
    let reads := fun l (v : State) =>
      ({ v with link := { v.link with work := v.link.work ++ [plainRead (.loadRead l) (metaArrayLine v l)] } } : State)
    (∀ ecc h, dueFor s (.loadRead (.settings 0)) →
      let valid := ecc ≠ .uncorrectable ∧ h.marker = true ∧ h.geom = s.pins.geom
      let fence := if h.stored = 0 ∨ s.fence.uNative < h.stored then s.fence.uNative else h.stored
      (¬valid →
        exec (.headerReadComplete ecc h) s =
          .next
            { f with metaCtl := { s.metaCtl with phase := .unformatted }, events := s.events.post .phaseChange })
        ∧ (valid →
          exec (.headerReadComplete ecc h) s =
            .next
              (reads (.image 0)
                { f with
                  fence :=
                    { s.fence with
                      current := fence, stored := fence, lockAtStart := h.lockAtStart, retain := h.retain
                      lock := if h.lockAtStart = true ∧ s.fence.lock = .unlocked then .locked else s.fence.lock
                      refusals := if h.lockAtStart = true ∧ s.fence.lock = .unlocked then 0 else s.fence.refusals } })))
      ∧ (∀ ecc k r0 r1 r2 r3, dueFor s (.loadRead (.image k)) →
        let taken := takeRecord (4 * k + 3) r3 (takeRecord (4 * k + 2) r2 (takeRecord (4 * k + 1) r1 (takeRecord (4 * k) r0 f)))
        let image := fun v => if k < 1023 then reads (.image (k + 1)) v else imageLoaded v
        (ecc ≠ .uncorrectable → exec (.imageReadComplete ecc [r0, r1, r2, r3]) s = .next (image taken))
          ∧ (ecc = .uncorrectable →
            exec (.imageReadComplete ecc [r0, r1, r2, r3]) s =
              .next
                (image
                  (writeIncident
                    { kind := .metadataDamaged, line := none, port := none, detail := none, index := some k }
                    (post .metadataDamaged
                      (addRepair (.image k)
                        (deadSlot (4 * k + 3) (deadSlot (4 * k + 2) (deadSlot (4 * k + 1) (deadSlot (4 * k) f))))))))))
      ∧ (∀ ecc j classes regions, dueFor s (.loadRead (.settings j)) → 1 ≤ j →
        let taken := if ecc = .uncorrectable then addRepair (.settings j) f else takeSettings j classes regions f
        (j < 5 → exec (.settingsReadComplete ecc classes regions) s = .next (reads (.settings (j + 1)) taken))
          ∧ (5 ≤ j →
            exec (.settingsReadComplete ecc classes regions) s =
              .next
                (settle
                  { taken with
                    metaCtl := { taken.metaCtl with phase := .readReady, settleTicks := some 0 }
                    events := taken.events.post .phaseChange })))
      ∧ (∀ slot, deadSlot slot s =
        { s with
          remap :=
            { s.remap with dead := insertNat s.remap.dead slot, records := sparseSet s.remap.records slot .dead } })
      ∧ (∀ l, addRepair l s =
        { s with
          metaCtl :=
            { s.metaCtl with repair := if l ∈ s.metaCtl.repair then s.metaCtl.repair else s.metaCtl.repair ++ [l] } })
      ∧ imageLoaded s =
        reads (.settings 1)
          { s with
            remap := { s.remap with loaded := true }
            events :=
              if freeCount s = 0 then (s.events.post .sparesLow).post .sparesExhausted
              else if freeCount s ≤ 64 then s.events.post .sparesLow
              else s.events }
      ∧ (∀ classes regions, classes.length = 4 → s.tables.classes.length = 4 → s.tables.storedClasses.length = 4 →
        let new := classes.map fun r : RawClass =>
          match r.mode, r.patrol, r.threshold with
          | some m, some p, some .off => { mode := m, patrol := p, threshold := .off }
          | some m, some p, some (.bits k) =>
            if 1 ≤ k ∧ k ≤ 8 then { mode := m, patrol := p, threshold := .bits k } else classDefault
          | _, _, _ => classDefault
        takeSettings 1 classes regions s = { s with tables := { s.tables with classes := new, storedClasses := new } })
      ∧ (∀ j classes regions, 2 ≤ j → j ≤ 5 → regions.length = 4 → s.tables.regions.length = 16 →
        s.tables.storedRegions.length = 16 →
        let new := regions.map fun r : RegionEntry =>
          if r.first ≤ r.last ∧ r.last < s.fence.uNative ∧ r.cls ≤ 3 then r else regionDefault
        let laid := fun (table : List RegionEntry) => table.take (4 * (j - 2)) ++ new ++ table.drop (4 * (j - 2) + 4)
        takeSettings j classes regions s =
          { s with
            tables :=
              { s.tables with regions := laid s.tables.regions, storedRegions := laid s.tables.storedRegions } })
      ∧ (∀ slot r, r.state = some .free → takeRecord slot r s = s)
      ∧ (∀ slot r, r.state = some .dead → takeRecord slot r s = deadSlot slot s)
      ∧ (∀ slot r,
        r.state = none
          ∨ (r.state = some .inUse
              ∧ (r.data = none ∨ r.origin = none ∨ s.fence.uNative ≤ r.line ∨ ∃ d ∈ r.data, dataFormed d = false)) →
        takeRecord slot r s = addRepair (.image (slot / 4)) (deadSlot slot s))
      ∧ ∀ slot r d o, r.state = some .inUse → r.data = some d → r.origin = some o → r.line < s.fence.uNative →
          dataFormed d = true →
          let e : RemapEntry := { slot := slot, data := d, origin := o, generation := r.generation }
          let bound : State :=
            { s with
              remap :=
                { s.remap with
                  table := sparseSet s.remap.table r.line e
                  records := sparseSet s.remap.records slot (.inUse r.line d o r.generation) } }
          (remapEntry s r.line = none → takeRecord slot r s = bound)
            ∧ ∀ held, remapEntry s r.line = some held →
              let lead := (r.generation - held.generation).toNat
              (1 ≤ lead → lead ≤ 127 →
                takeRecord slot r s = addRepair (.image (held.slot / 4)) (deadSlot held.slot bound))
                ∧ (lead = 0 ∨ 128 ≤ lead → takeRecord slot r s = addRepair (.image (slot / 4)) (deadSlot slot s))

/-- FORMAT_ARRAY in UNFORMATTED, with the map lock OPEN and no fault, makes every slot record FREE and places the first
of 1,030 programs, image lines first, then settings lines 1 to 5, then the header; the last completion gives DONE and
begins LOADING, with the table, the pool and the records empty, the fences at U_native and both copies of the tables at
the format defaults, and a failure sets the metadata fault and gives METADATA_FAULT and UNFORMATTED, with everything
else kept. Every other FORMAT_ARRAY is refused (R30, R119, R159, R164, R165). -/
def Obligations.FormattingProgramsTheMetadataArea : Prop :=
  ∀ s : State,
    let program := fun n (v : State) =>
      let l : MetaLine := if n < 1024 then .image n else if n < 1029 then .settings (n - 1023) else .settings 0
      placeOp
        { purpose := .formatProgram n, arrayLine := metaArrayLine v l, action := .compose, first := false
          issued := false } v
    (idle s = true →
      (s.metaCtl.phase ≠ .unformatted →
        ∃ t, exec .formatArray s = .next t ∧ Keeps [.mgmt, .events] s t ∧ Completed 0x18#8 .notReady [] s t)
        ∧ (s.metaCtl.phase = .unformatted → ∀ r, lockRefusal s = some r →
          ∃ t, exec .formatArray s = .next t ∧ Keeps [.mgmt, .events] s t ∧ Completed 0x18#8 r [] s t)
        ∧ (s.metaCtl.phase = .unformatted → s.fence.lock = .unlocked → s.remap.fault = true →
          ∃ t, exec .formatArray s = .next t ∧ Keeps [.mgmt, .events] s t ∧ Completed 0x18#8 .metadataFault [] s t)
        ∧ (s.metaCtl.phase = .unformatted → s.fence.lock = .unlocked → s.remap.fault = false →
          exec .formatArray s =
            .next
              (program 0
                { s with
                  mgmt := { s.mgmt with command := 0x18#8, copy := s.mgmt.params, busy := some .format }
                  remap := { s.remap with table := [], dead := [], records := [] }
                  metaCtl := { s.metaCtl with phase := .formatting }
                  events := s.events.post .phaseChange })))
      ∧ ∀ n, dueFor s (.formatProgram n) →
        (n < 1029 → exec (.formatProgramComplete true) s = .next (program (n + 1) (portFreed s)))
          ∧ (1029 ≤ n →
            ∃ t, exec (.formatProgramComplete true) s = .next t
              ∧ Keeps [.link, .mgmt, .events, .metaCtl, .remap, .tables, .fence] s t
              ∧ t.mgmt = { s.mgmt with result := 0x01#8, rdata := List.replicate 8 0#32, busy := none }
              ∧ t.events = (s.events.post .commandDone).post .phaseChange
              ∧ t.metaCtl = { s.metaCtl with phase := .loading, repair := [] }
              ∧ t.link =
                { s.link with
                  work := s.link.work ++ [plainRead (.loadRead (.settings 0)) (s.fence.uNative + 5120)], inFlight := none }
              ∧ t.remap = { s.remap with table := [], dead := [], records := [], loaded := false }
              ∧ t.fence =
                { s.fence with
                  current := s.fence.uNative, stored := s.fence.uNative, lockAtStart := false, retain := false }
              ∧ t.tables =
                { regions := List.replicate 16 regionDefault, classes := List.replicate 4 classDefault
                  storedRegions := List.replicate 16 regionDefault, storedClasses := List.replicate 4 classDefault })
          ∧ exec (.formatProgramComplete false) s =
              .next
                (let v := setFault (portFreed s)
                 { v with
                   mgmt := { v.mgmt with result := 0x09#8, rdata := List.replicate 8 0#32, busy := none }
                   metaCtl := { v.metaCtl with phase := .unformatted }
                   events := (v.events.post .commandDone).post .phaseChange })
          ∧ ∃ t, exec (.formatProgramComplete false) s = .next t ∧ t.metaCtl.phase = .unformatted
              ∧ t.remap.fault = true ∧ t.mgmt.busy = none ∧ t.mgmt.result = 0x09#8 ∧ t.link.inFlight = none
              ∧ (s.link.work.all (fun o => !o.withdrawable) = true → s.metaCtl.phase = .formatting →
                Keeps [.link, .remap, .mgmt, .events, .metaCtl] s t
                  ∧ t.link = { s.link with inFlight := none } ∧ t.remap = { s.remap with fault := true }
                  ∧ t.mgmt = { s.mgmt with result := 0x09#8, rdata := List.replicate 8 0#32, busy := none }
                  ∧ t.metaCtl = { s.metaCtl with phase := .unformatted }
                  ∧ (s.remap.fault = false →
                    t.events = ((s.events.post .metadataFault).post .commandDone).post .phaseChange))

/-! ### The command codes -/

/-- SET_FENCE is judged by phase, map lock, parameter and, when STORED, metadata fault; taken, it changes F alone or F
and the stored fence, and the STORED form waits for the program of settings line 0. READ_LIMITS returns the limits and
the lock's fields (R24, R25, R26, R27, R30, R37, R173, R176). -/
def Obligations.FenceCommandsMoveAndReportTheFence : Prop :=
  ∀ s : State, idle s = true →
    let v := paramValue s 0
    let stored := paramValue s 1
    let refused := fun r => ∃ t, exec .setFence s = .next t ∧ Keeps [.mgmt, .events] s t ∧ Completed 0x02#8 r [] s t
    let starting := s.metaCtl.phase.starting
    let open_ := starting = false ∧ s.fence.lock = .unlocked
    let fits := 1 ≤ v ∧ v ≤ s.fence.uNative ∧ stored ≤ 1
    (starting = true → refused .notReady)
      ∧ (starting = false → ∀ r, lockRefusal s = some r → refused r)
      ∧ (open_ → ¬fits → refused .badParameter)
      ∧ (open_ → fits → stored = 1 → s.remap.fault = true → refused .metadataFault)
      ∧ (open_ → fits → stored = 0 →
        ∃ t, exec .setFence s = .next t ∧ Keeps [.mgmt, .events, .fence] s t ∧ Completed 0x02#8 .done [] s t
          ∧ t.fence = { s.fence with current := v })
      ∧ (open_ → fits → stored = 1 → s.remap.fault = false →
        exec .setFence s =
          .next
            (settle
              (requestMeta (.settings 0) .command
                { s with
                  fence := { s.fence with current := v, stored := v }
                  mgmt := { s.mgmt with command := 0x02#8, copy := s.mgmt.params, busy := some .header } })))
      ∧ (s.metaCtl.phase = .geometryFault →
        ∃ t, exec .readLimits s = .next t ∧ Keeps [.mgmt, .events] s t ∧ Completed 0x01#8 .notReady [] s t)
      ∧ (s.metaCtl.phase ≠ .geometryFault →
        let counts := if s.remap.loaded then (freeCount s, s.remap.table.length, s.remap.dead.length) else (0, 0, 0)
        ∃ t, exec .readLimits s = .next t ∧ Keeps [.mgmt, .events] s t
          ∧ Completed 0x01#8 .done
            [word s.fence.uNative, word s.fence.current, word s.fence.stored, word counts.1, word counts.2.1,
              word counts.2.2,
              word s.fence.refusals ||| ((if s.fence.lockAtStart then 1#32 else 0#32) <<< 8)
                ||| ((if s.fence.retain then 1#32 else 0#32) <<< 9)] s t)

/-- The lock commands: FENCE_LOCK locks an OPEN map, FENCE_UNLOCK opens a LOCKED one under MAINT_EN and otherwise counts
a refusal, the fifth of which makes it EXPIRED, and FENCE_FREEZE freezes it; "also at start" stores the lock-at-start
flag by a program of settings line 0 (R31 to R34). MAINT_EN comes with FENCE_UNLOCK and is the one pin that changes,
with that command alone (log entry 15). -/
def Obligations.LockCommandsFollowTheLockState : Prop :=
  ∀ s : State, idle s = true →
    let also := (s.mgmt.params.getD 0 0#32).getLsbD 0
    let early := s.metaCtl.phase = .geometryFault ∨ s.metaCtl.phase = .loading
    let barred := early ∨ (also = true ∧ (s.metaCtl.phase = .unformatted ∨ s.metaCtl.phase = .formatting))
    let sampled := fun m => { s.pins with maintEn := m }
    let ends := fun c code r fence pins => ∃ t, exec c s = .next t ∧ Keeps [.mgmt, .events, .fence, .pins] s t
      ∧ Completed code r [] s t ∧ t.fence = fence ∧ t.pins = pins
    let program := fun code fence pins =>
      settle
        (requestMeta (.settings 0) .command
          { s with
            fence := fence, pins := pins
            mgmt := { s.mgmt with command := code, copy := s.mgmt.params, busy := some .header } })
    let locked := { s.fence with lock := if s.fence.lock = .unlocked then .locked else s.fence.lock }
    (barred → ends .fenceLock 0x03#8 .notReady s.fence s.pins
      ∧ ∀ m, ends (.fenceUnlock m) 0x04#8 .notReady s.fence (sampled m))
      ∧ (¬barred → s.fence.lock = .frozen →
        ends .fenceLock 0x03#8 .refusedFrozen s.fence s.pins
          ∧ ∀ m, ends (.fenceUnlock m) 0x04#8 .refusedFrozen s.fence (sampled m))
      ∧ (¬barred → s.fence.lock ≠ .frozen →
        (also = false → ends .fenceLock 0x03#8 .done locked s.pins)
          ∧ (also = true → s.remap.fault = true → ends .fenceLock 0x03#8 .metadataFault locked s.pins)
          ∧ (also = true → s.remap.fault = false →
            exec .fenceLock s = .next (program 0x03#8 { locked with lockAtStart := true } s.pins)))
      ∧ (¬barred → s.fence.lock = .expired → ∀ m, ends (.fenceUnlock m) 0x04#8 .refusedExpired s.fence (sampled m))
      ∧ (¬barred → s.fence.lock = .locked → s.fence.refusals < 4 →
        ends (.fenceUnlock false) 0x04#8 .refusedLocked { s.fence with refusals := s.fence.refusals + 1 }
          (sampled false))
      ∧ (¬barred → s.fence.lock = .locked → s.fence.refusals = 4 →
        ∃ t, exec (.fenceUnlock false) s = .next t ∧ Keeps [.mgmt, .events, .fence, .pins] s t
          ∧ t.mgmt = completedMgmt 0x04#8 .refusedLocked [] s
          ∧ t.events = (s.events.post .lockExpired).post .commandDone
          ∧ t.fence = { s.fence with refusals := 5, lock := .expired } ∧ t.pins = sampled false)
      ∧ (∀ m, ¬barred → (s.fence.lock = .locked ∧ m = true) ∨ s.fence.lock = .unlocked →
        let opened :=
          { s.fence with lock := .unlocked, refusals := if s.fence.lock = .locked then 0 else s.fence.refusals }
        (also = false → ends (.fenceUnlock m) 0x04#8 .done opened (sampled m))
          ∧ (also = true → s.remap.fault = true → ends (.fenceUnlock m) 0x04#8 .metadataFault opened (sampled m))
          ∧ (also = true → s.remap.fault = false →
            exec (.fenceUnlock m) s =
              .next (program 0x04#8 { opened with lockAtStart := false } (sampled m))))
      ∧ (early → ends .fenceFreeze 0x05#8 .notReady s.fence s.pins)
      ∧ (¬early → ends .fenceFreeze 0x05#8 .done { s.fence with lock := .frozen } s.pins)

/-- LOAD_CLASS is judged by phase, then map lock, then index and fields; taken, the whole new entry stands in the
working class table at the index and the stored copy is not changed (R46). -/
def Obligations.LoadClassReplacesOneWorkingEntry : Prop :=
  ∀ s : State, idle s = true → s.tables.classes.length = 4 →
    let i := paramValue s 0
    let m := paramValue s 1
    let p := paramValue s 2
    let k := paramValue s 3
    let formed := i ≤ 3 ∧ m ≤ 1 ∧ p ≤ 1 ∧ ((1 ≤ k ∧ k ≤ 8) ∨ k = 255)
    let refused := fun r => ∃ t, exec .loadClass s = .next t ∧ Keeps [.mgmt, .events] s t ∧ Completed 0x07#8 r [] s t
    let early := s.metaCtl.phase = .geometryFault ∨ s.metaCtl.phase = .loading ∨ s.metaCtl.phase = .unformatted
      ∨ s.metaCtl.phase = .formatting
    (early → refused .notReady)
      ∧ (¬early → s.fence.lock = .locked → refused .refusedLocked)
      ∧ (¬early → s.fence.lock = .expired → refused .refusedExpired)
      ∧ (¬early → s.fence.lock = .frozen → refused .refusedFrozen)
      ∧ (¬early → s.fence.lock = .unlocked → ¬formed → refused .badParameter)
      ∧ (¬early → s.fence.lock = .unlocked → formed →
        ∃ t, exec .loadClass s = .next t ∧ Keeps [.mgmt, .events, .tables] s t ∧ Completed 0x07#8 .done [] s t
          ∧ t.tables = { s.tables with classes := t.tables.classes } ∧ t.tables.classes.length = 4
          ∧ t.tables.classes[i]? =
            some
              { mode := if m = 0 then .posted else .through, patrol := if p = 0 then .included else .excluded
                threshold := if k = 255 then .off else .bits k }
          ∧ ∀ n, n ≠ i → t.tables.classes[n]? = s.tables.classes[n]?)

/-- LOAD_REGION places one whole working region entry, and SAVE_SETTINGS makes the stored copies equal to the working
tables, takes the retain flag, and waits for the six programs of lines 1 to 5 and 0; both are judged by phase and map
lock first (R30, R35, R38, R45, R49, R166). -/
def Obligations.LoadRegionAndSaveSettings : Prop :=
  ∀ s : State, idle s = true → s.tables.regions.length = 16 →
    let i := paramValue s 0
    let w := s.mgmt.params.getD 3 0#32
    let r : RegionEntry :=
      { enabled := w.getLsbD 0, first := paramValue s 1, last := paramValue s 2, cls := (w.extractLsb' 8 8).toNat
        aRead := w.getLsbD 16, aWrite := w.getLsbD 17, bRead := w.getLsbD 18, bWrite := w.getLsbD 19 }
    let formed := i ≤ 15 ∧ r.first ≤ r.last ∧ r.last < s.fence.uNative ∧ r.cls ≤ 3
    let refused := fun c code r => ∃ t, exec c s = .next t ∧ Keeps [.mgmt, .events] s t ∧ Completed code r [] s t
    let starting := s.metaCtl.phase.starting
    let open_ := starting = false ∧ s.fence.lock = .unlocked
    (starting = true → refused .loadRegion 0x06#8 .notReady ∧ refused .saveSettings 0x08#8 .notReady)
      ∧ (starting = false → ∀ r, lockRefusal s = some r →
        refused .loadRegion 0x06#8 r ∧ refused .saveSettings 0x08#8 r)
      ∧ (open_ → ¬formed → refused .loadRegion 0x06#8 .badParameter)
      ∧ (open_ → formed →
        ∃ t, exec .loadRegion s = .next t ∧ Keeps [.mgmt, .events, .tables] s t ∧ Completed 0x06#8 .done [] s t
          ∧ t.tables = { s.tables with regions := t.tables.regions } ∧ t.tables.regions[i]? = some r
          ∧ ∀ n, n ≠ i → t.tables.regions[n]? = s.tables.regions[n]?)
      ∧ (open_ → s.remap.fault = true → refused .saveSettings 0x08#8 .metadataFault)
      ∧ (open_ → s.remap.fault = false →
        exec .saveSettings s =
          .next
            (settle
              (requestMeta (.settings 1) .command
                { s with
                  tables := { s.tables with storedRegions := s.tables.regions, storedClasses := s.tables.classes }
                  fence := { s.fence with retain := (s.mgmt.params.getD 0 0#32).getLsbD 0 }
                  mgmt :=
                    { s.mgmt with
                      command := 0x08#8, copy := s.mgmt.params, busy := some (.save [2, 3, 4, 5, 0]) } })))

/-- The watch commands: LOAD_RANGE and LOAD_TARGET place one whole entry, a range entry with its hit flag clear;
SEQUENCE_SET sets the count and arms or holds, SEQUENCE_ARM arms, both with the index at 0, and SEQUENCE_DISARM disarms;
all are taken whatever the map lock holds (R147, R148, R152, R153, R175). That the hit flag is cleared also where the
new entry is disabled is the model's reading (log entry 32). -/
def Obligations.WatchCommandsLoadAndArm : Prop :=
  ∀ s : State, idle s = true → s.watch.ranges.length = 8 → s.watch.targets.length = 16 →
    let v := paramValue s
    let w := s.mgmt.params.getD 3 0#32
    let kinds := (w.extractLsb' 4 2).toNat
    let ports := (w.extractLsb' 8 2).toNat
    let action := (w.extractLsb' 12 2).toNat
    let range := v 0 ≤ 7 ∧ v 1 ≤ v 2 ∧ v 2 < 64 * s.fence.uNative ∧ 1 ≤ kinds ∧ 1 ≤ ports ∧ action ≤ 1 ∧ v 4 ≤ 255
    let target := v 0 ≤ 15 ∧ v 1 < 64 * s.fence.uNative ∧ v 2 ≤ 1 ∧ v 3 ≤ 255
    let ends := fun c code r watch => ∃ t, exec c s = .next t ∧ Keeps [.mgmt, .events, .watch] s t
      ∧ Completed code r [] s t ∧ t.watch = watch
    let fault := s.metaCtl.phase = .geometryFault
    (fault →
      ends .loadRange 0x09#8 .notReady s.watch ∧ ends .loadTarget 0x0A#8 .notReady s.watch
        ∧ ends .sequenceSet 0x0B#8 .notReady s.watch ∧ ends .sequenceArm 0x0C#8 .notReady s.watch
        ∧ ends .sequenceDisarm 0x0D#8 .notReady s.watch)
      ∧ (¬fault →
        (¬range → ends .loadRange 0x09#8 .badParameter s.watch)
          ∧ (range →
            ends .loadRange 0x09#8 .done
              { s.watch with
                ranges :=
                  s.watch.ranges.set (v 0)
                    { enabled := w.getLsbD 0, first := v 1, last := v 2
                      kinds := if kinds = 1 then .read else if kinds = 2 then .write else .both
                      ports := if ports = 1 then .a else if ports = 2 then .b else .both
                      action := if action = 0 then .note else .refuse, tag := BitVec.ofNat 8 (v 4), hit := false } })
          ∧ (¬target → ends .loadTarget 0x0A#8 .badParameter s.watch)
          ∧ (target →
            ends .loadTarget 0x0A#8 .done
              { s.watch with
                targets :=
                  s.watch.targets.set (v 0)
                    { addr := v 1, kind := if v 2 = 0 then .read else .write, tag := BitVec.ofNat 8 (v 3) } })
          ∧ (v 0 = 0 ∨ 16 < v 0 ∨ 1 < v 1 → ends .sequenceSet 0x0B#8 .badParameter s.watch)
          ∧ (1 ≤ v 0 → v 0 ≤ 16 → v 1 ≤ 1 →
            ends .sequenceSet 0x0B#8 .done
              { s.watch with count := v 0, index := 0, armed := decide (v 1 = 1) })
          ∧ ends .sequenceArm 0x0C#8 .done { s.watch with index := 0, armed := true }
          ∧ ends .sequenceDisarm 0x0D#8 .done { s.watch with armed := false })

/-- DRAIN_ALL takes the entries in the buffer as its target set and completes with its two counts when the set is empty;
SET_RESERVE changes the reserve at once when the entries in use fit it, or waits until they do; CANCEL completes either
with CANCELLED, leaves every other command in progress, and alone completes DONE. A code that names no command completes
UNKNOWN_COMMAND, and any code but CANCEL written while busy only posts COMMAND_OVERRUN (R52, R69, R70, R76, R77, R173,
R174). -/
def Obligations.WaitingCommandsCompleteOrAreCancelled : Prop :=
  ∀ s : State, s.pins.porst = false →
    let n := paramValue s 0
    let fit := fun m => s.buffer.entries.length ≤ 32 - m ∧ s.health.jobs.length ≤ m
    let entries := fun b => s.buffer.entries.map fun e => { e with target := b }
    let ends := fun c r data buffer => ∃ t, exec c s = .next t ∧ Keeps [.mgmt, .events, .buffer] s t
      ∧ t.mgmt =
        { s.mgmt with result := ResultCode.code r, rdata := data ++ List.replicate (8 - data.length) 0#32, busy := none }
      ∧ t.events = s.events.post .commandDone ∧ t.buffer = buffer
    let starts := fun c code r data => ∃ t, exec c s = .next t ∧ Keeps [.mgmt, .events] s t ∧ Completed code r data s t
    (s.mgmt.busy = none →
      (s.metaCtl.phase = .geometryFault →
        starts .drainAll 0x0E#8 .notReady [] ∧ starts .setReserve 0x0F#8 .notReady [] ∧ starts .cancel 0x19#8 .notReady [])
        ∧ (s.metaCtl.phase ≠ .geometryFault →
          (s.buffer.entries = [] → starts .drainAll 0x0E#8 .done [0#32, 0#32])
            ∧ (s.buffer.entries ≠ [] →
              exec .drainAll s =
                .next
                  { s with
                    buffer := { s.buffer with entries := entries true }
                    mgmt :=
                      { s.mgmt with
                        command := 0x0E#8, copy := s.mgmt.params
                        busy := some (.drainAll s.buffer.entries.length 0) } })
            ∧ (n ≠ 0 ∧ n ≠ 1 ∧ n ≠ 2 ∧ n ≠ 4 → starts .setReserve 0x0F#8 .badParameter [])
            ∧ (n = 0 ∨ n = 1 ∨ n = 2 ∨ n = 4 → n = s.buffer.reserve ∨ fit n →
              ∃ t, exec .setReserve s = .next t ∧ Keeps [.mgmt, .events, .buffer] s t ∧ Completed 0x0F#8 .done [] s t
                ∧ t.buffer = { s.buffer with reserve := n })
            ∧ (n = 0 ∨ n = 1 ∨ n = 2 ∨ n = 4 → n ≠ s.buffer.reserve → ¬fit n →
              exec .setReserve s =
                .next
                  { s with mgmt := { s.mgmt with command := 0x0F#8, copy := s.mgmt.params, busy := some (.reserve n) } })
            ∧ starts .cancel 0x19#8 .done [])
        ∧ (∀ code, code = 0#8 ∨ 0x19 < code.toNat → starts (.unknownCommand code) code .unknownCommand [])
        ∧ exec .drainAllComplete s = .next s ∧ exec .reserveWaitClose s = .next s)
      ∧ (∀ taken lost, s.mgmt.busy = some (.drainAll taken lost) →
        ((∀ e ∈ s.buffer.entries, e.target = false) → ends .drainAllComplete .done [word taken, word lost] s.buffer)
          ∧ ((∃ e ∈ s.buffer.entries, e.target = true) → exec .drainAllComplete s = .next s)
          ∧ ends .cancel .cancelled [word taken, word lost] { s.buffer with entries := entries false })
      ∧ (∀ m, s.mgmt.busy = some (.reserve m) →
        (fit m → ends .reserveWaitClose .done [] { s.buffer with reserve := m })
          ∧ (¬fit m → exec .reserveWaitClose s = .next s) ∧ ends .cancel .cancelled [] s.buffer)
      ∧ (s.mgmt.busy = some .header ∨ s.mgmt.busy = some .format ∨ (∃ rest, s.mgmt.busy = some (.save rest)) →
        exec .cancel s = .next s)
      ∧ (s.mgmt.busy.isSome = true →
        (∀ code, code ≠ 0x19#8 →
          exec (.commandWriteWhileBusy code) s = .next { s with events := s.events.post .commandOverrun })
          ∧ ∀ c code, c.wellFormed = true → c.commandCode = some code → code ≠ 0x19#8 →
            exec c s = .next { s with events := s.events.post .commandOverrun })

/-- RETIRE_LINE in FULL_READY acts by the first case that applies: a candidate leaves its list for a reassign with no
data; a line in one, a POISONED line or one in a job in flight is DONE already; a queued job takes the reason
RETIRE_COMMAND; else a job joins the queue, or QUEUE_FULL (R107, R136). -/
def Obligations.RetireLineActsByTheFirstCase : Prop :=
  ∀ s : State, idle s = true →
    let line := paramValue s 0
    let ends := fun r health remap => ∃ t, exec .retireLine s = .next t ∧ Keeps [.mgmt, .events, .health, .remap] s t
      ∧ Completed 0x10#8 r [] s t ∧ t.health = health ∧ t.remap = remap
    let retired := { s.health with candidates := s.health.candidates.filter fun c => c.line != line }
    let valid := s.metaCtl.phase = .fullReady ∧ line < s.fence.uNative
    let candidate := valid ∧ isCandidate s line = true
    let clear := valid ∧ isCandidate s line = false ∧ noDataPresent s line = false ∧ dataState s line ≠ .poisoned
      ∧ jobInFlight s line = false
    (s.metaCtl.phase ≠ .fullReady → ends .notReady s.health s.remap)
      ∧ (s.metaCtl.phase = .fullReady → s.fence.uNative ≤ line → ends .badParameter s.health s.remap)
      ∧ (candidate → noDataPresent s line = true → ends .done retired s.remap)
      ∧ (candidate → noDataPresent s line = false → s.remap.noData.length < 16 →
        ends .done retired
          { s.remap with noData := s.remap.noData ++ [{ line := line, origin := .retireCommand }] })
      ∧ (candidate → noDataPresent s line = false → 16 ≤ s.remap.noData.length → ends .queueFull s.health s.remap)
      ∧ (valid → isCandidate s line = false →
        noDataPresent s line = true ∨ dataState s line = .poisoned ∨ jobInFlight s line = true →
        ends .done s.health s.remap)
      ∧ (clear → jobQueued s line = true →
        ends .done
          { s.health with
            queue := s.health.queue.map fun j => if j.line = line then { j with reason := .retireCommand } else j }
          s.remap)
      ∧ (clear → jobQueued s line = false → s.health.queue.length < 16 →
        ends .done { s.health with queue := s.health.queue ++ [{ line := line, reason := .retireCommand }] } s.remap)
      ∧ (clear → jobQueued s line = false → 16 ≤ s.health.queue.length → ends .queueFull s.health s.remap)

/-- READ_REMAP, READ_SLOT, READ_CANDIDATE and PATROL_STATUS return what they name and change nothing; PATROL_START and
PATROL_STOP set the patrol; SET_GRANT_LIMIT places the limit, which may expire the grant wait at once (R37, R88, R89,
R120, R121, R128, R137, R141, R142, R172, R175, R176). -/
def Obligations.QueriesReportAndPatrolCommandsSet : Prop :=
  ∀ s : State, idle s = true →
    let v := paramValue s
    let p := s.health.patrol
    let tells := fun c code r data => ∃ t, exec c s = .next t ∧ Keeps [.mgmt, .events] s t ∧ Completed code r data s t
    let sets := fun c code patrol => ∃ t, exec c s = .next t ∧ Keeps [.mgmt, .events, .health] s t
      ∧ Completed code .done [] s t ∧ t.health = { s.health with patrol := patrol }
    let starting := s.metaCtl.phase.starting
    let fault := s.metaCtl.phase = .geometryFault
    let entry := fun line (e : RemapEntry) =>
      let state := match e.data with | .intact => 0#32 | .poisoned => 1#32 | .partialOf _ => 2#32
      let origin : Word :=
        match e.origin with
        | .programFail => 0#32 | .relocated => 1#32 | .candidateFail => 2#32 | .candidateOverflow => 3#32
        | .mergeFail => 4#32 | .retireCommand => 5#32
      let valid := match e.data with | .partialOf m => m | _ => Mask.empty
      [word e.slot, word line, state ||| (origin <<< 8) ||| (e.generation.setWidth 32 <<< 16),
        (valid.extractLsb' 32 32), (valid.extractLsb' 0 32), 1#32]
    (starting = true →
      tells .readRemap 0x11#8 .notReady [] ∧ tells .readSlot 0x12#8 .notReady []
        ∧ tells .patrolStart 0x14#8 .notReady [])
      ∧ (starting = false →
        (s.fence.uNative ≤ v 0 → tells .readRemap 0x11#8 .badParameter [])
          ∧ (v 0 < s.fence.uNative → remapEntry s (v 0) = none → tells .readRemap 0x11#8 .notFound [])
          ∧ (∀ e, v 0 < s.fence.uNative → remapEntry s (v 0) = some e →
            tells .readRemap 0x11#8 .done (entry (v 0) e))
          ∧ (4095 < v 0 → tells .readSlot 0x12#8 .badParameter [])
          ∧ (v 0 ≤ 4095 → poolState s (v 0) = .free → tells .readSlot 0x12#8 .done [word (v 0)])
          ∧ (v 0 ≤ 4095 → poolState s (v 0) = .dead →
            tells .readSlot 0x12#8 .done [word (v 0), 0#32, 0#32, 0#32, 0#32, 2#32])
          ∧ (∀ line e, v 0 ≤ 4095 → poolState s (v 0) = .inUse → entryOfSlot s (v 0) = some (line, e) →
            tells .readSlot 0x12#8 .done (entry line e))
          ∧ (v 0 = 0 ∨ 2 < v 0 ∨ v 1 = 0 ∨ 65535 < v 1 → tells .patrolStart 0x14#8 .badParameter [])
          ∧ (v 0 = 1 ∨ v 0 = 2 → 1 ≤ v 1 → v 1 ≤ 65535 →
            sets .patrolStart 0x14#8
              { p with
                mode := if v 0 = 1 then .singlePass else .continuous, interval := v 1, cursor := 0, since := 0
                ticks := 0 }))
      ∧ (fault →
        tells .readCandidate 0x13#8 .notReady [] ∧ tells .patrolStop 0x15#8 .notReady []
          ∧ tells .patrolStatus 0x16#8 .notReady [] ∧ tells .setGrantLimit 0x17#8 .notReady [])
      ∧ (¬fault →
        (∀ c, s.health.candidates[v 0]? = some c →
          tells .readCandidate 0x13#8 .done
            [word c.line, match c.source with | .read => 0#32 | .patrol => 1#32 | .relocation => 2#32,
              word s.health.candidates.length])
          ∧ (s.health.candidates.length ≤ v 0 →
            tells .readCandidate 0x13#8 .notFound [0#32, 0#32, word s.health.candidates.length])
          ∧ sets .patrolStop 0x15#8 { p with mode := .stopped, ticks := 0, since := 0 }
          ∧ tells .patrolStatus 0x16#8 .done
              [match p.mode with | .stopped => 0#32 | .singlePass => 1#32 | .continuous => 2#32, word p.cursor,
                word p.passes, word p.interval, word p.since, if p.outstanding.isSome then 1#32 else 0#32]
          ∧ (65535 < v 0 → tells .setGrantLimit 0x17#8 .badParameter [])
          ∧ (v 0 ≤ 65535 →
            ∃ t, Keeps [.mgmt, .events, .link] s t ∧ Completed 0x17#8 .done [] s t
              ∧ t.link = { s.link with limit := v 0 }
              ∧ exec .setGrantLimit s = .next (if grantExpired t then settle (expire t) else t)))

/-! ### Invariants that every step keeps -/

/-- The state that State.reset gives, and the one that every release of PORST gives, meet every invariant below (R36,
R51, R80, R99, R122, R143, R154, R168, R185). -/
def Obligations.ResetMeetsTheInvariants : Prop :=
  ∀ (pins : Pins) (g : BitVec 2) (queue : List Instr),
    ∀ s ∈ [State.reset, State.atRelease pins g queue],
      eventsOk s = true ∧ shapesOk s = true ∧ sequenceOk s = true ∧ regionsOk s = true ∧ classesOk s = true
        ∧ watchesOk s = true ∧ fencesOk s = true
        ∧ lockOk s = true ∧ queuesOk s = true ∧ sparseOk s = true ∧ bufferOk s = true ∧ reserveOk s = true
        ∧ poolOk s = true ∧ untouchedFrom 0 s = true

/-- While its enable is clear a flag is clear, only assigned positions are held, and the incident queue holds at most 16
records, after every step (R171, R177, R181, R183). -/
def Obligations.EventsStayWellFormed : Prop :=
  ∀ s t : State, eventsOk s = true → step s = .next t → eventsOk t = true

/-- The tables keep their sizes, every region entry its form, every class threshold, working and stored, its range of 1
to 8 or OFF, every range watch its first address at or below its last and that below 64 times U_native, every target its
address below 64 times U_native, both fences stay from 1 to U_native, the refusal count stays what the lock state
allows, and the sequence index stays below its count (R22, R32, R38, R41, R46, R48, R144, R148, R149, R152, R171). -/
def Obligations.SettingsStayWellFormed : Prop :=
  ∀ s t : State, shapesOk s = true → sequenceOk s = true → regionsOk s = true → classesOk s = true →
    watchesOk s = true → fencesOk s = true → lockOk s = true → step s = .next t →
    shapesOk t = true ∧ sequenceOk t = true ∧ regionsOk t = true ∧ classesOk t = true ∧ watchesOk t = true
      ∧ fencesOk t = true ∧ lockOk t = true

/-- Every queue stays within its depth, the candidate list and the relocation queue name each line once and no candidate
is on the queue or in a job in flight, and the sparse tables keep their canonical form (R2, R92, R100, R105, R107, R123,
R129, R130). That no offer is taken of a line in a job in flight is the model's reading (log entry 29). -/
def Obligations.QueuesAndSparseTablesStayCanonical : Prop :=
  ∀ s t : State, queuesOk s = true → sparseOk s = true → step s = .next t → queuesOk t = true ∧ sparseOk t = true

/-- The age list keeps at most one PENDING entry of a line, behind its DRAINING one, with one DRAINING entry exactly
while a drain is in progress; the entries in use stay within the capacities of the reserve (R52, R54, R59, R76). -/
def Obligations.BufferStaysWithinItsRules : Prop :=
  ∀ s t : State, bufferOk s = true → reserveOk s = true → step s = .next t → bufferOk t = true ∧ reserveOk t = true

/-- The spare pool stays a partition: the entries' slots are distinct and not DEAD, and the trial slot of the reassign
being served, at the head of the work list, is FREE. While image line k is read, with nothing being served, the slots
from 4k up are still untouched, and those from 4k + 4 up stay so over the step. While a loading read is pending, in
flight or abandoned in LOADING, every step keeps it so, with the slots that are still to be loaded untouched, or
completes it and places the next one, or ends LOADING (R103, R106, R108, R113, R159 to R161). -/
def Obligations.SparePoolStaysAPartition : Prop :=
  (∀ s t : State, poolOk s = true → sparseOk s = true → (∀ k, loadInFlight s ≠ some (.image k)) → step s = .next t →
    poolOk t = true)
    ∧ (∀ (s t : State) (k : Nat), poolOk s = true → sparseOk s = true → k < 1024 →
      loadInFlight s = some (.image k) → s.remap.serving = none → untouchedFrom (4 * k) s = true → step s = .next t →
      poolOk t = true ∧ untouchedFrom (4 * (k + 1)) t = true)
    ∧ ∀ (s t : State) (l : MetaLine), Loading l s → untouchedFrom (loadBound l) s = true → step s = .next t →
      (t.pins.porst = true ∧ untouchedFrom 0 t = true) ∨ t.metaCtl.phase = .unformatted ∨ t.metaCtl.phase.starting = false
        ∨ (Loading l t ∧ untouchedFrom (loadBound l) t = true)
        ∨ (loadInFlight s = some l ∧ ∃ l', loadNext l = some l' ∧ Loading l' t ∧ untouchedFrom (loadBound l') t = true)
end

