-- ==== Sys2Proof/Laws/Frame.lean ====
section
/-!
SUPPORT. Frames: for each operation over the state, the blocks it leaves as they were, in one lemma of rewrite rules.
Later proofs cite these instead of unfolding an operation to see what it does not touch.
-/

namespace Sys2Proof.Machine

/-! ### Folds -/

@[simp] theorem foldl_pins {α : Type} (f : State → α → State) (h : ∀ t a, (f t a).pins = t.pins) (l : List α) (s : State) :
    (l.foldl f s).pins = s.pins := by
  induction l generalizing s with
  | nil => rfl
  | cons a l ih => simp [ih, h]

@[simp] theorem foldl_path {α : Type} (f : State → α → State) (h : ∀ t a, (f t a).path = t.path) (l : List α) (s : State) :
    (l.foldl f s).path = s.path := by
  induction l generalizing s with
  | nil => rfl
  | cons a l ih => simp [ih, h]

@[simp] theorem foldl_fence {α : Type} (f : State → α → State) (h : ∀ t a, (f t a).fence = t.fence) (l : List α) (s : State) :
    (l.foldl f s).fence = s.fence := by
  induction l generalizing s with
  | nil => rfl
  | cons a l ih => simp [ih, h]

@[simp] theorem foldl_tables {α : Type} (f : State → α → State) (h : ∀ t a, (f t a).tables = t.tables) (l : List α) (s : State) :
    (l.foldl f s).tables = s.tables := by
  induction l generalizing s with
  | nil => rfl
  | cons a l ih => simp [ih, h]

@[simp] theorem foldl_buffer {α : Type} (f : State → α → State) (h : ∀ t a, (f t a).buffer = t.buffer) (l : List α) (s : State) :
    (l.foldl f s).buffer = s.buffer := by
  induction l generalizing s with
  | nil => rfl
  | cons a l ih => simp [ih, h]

@[simp] theorem foldl_link {α : Type} (f : State → α → State) (h : ∀ t a, (f t a).link = t.link) (l : List α) (s : State) :
    (l.foldl f s).link = s.link := by
  induction l generalizing s with
  | nil => rfl
  | cons a l ih => simp [ih, h]

@[simp] theorem foldl_remap {α : Type} (f : State → α → State) (h : ∀ t a, (f t a).remap = t.remap) (l : List α) (s : State) :
    (l.foldl f s).remap = s.remap := by
  induction l generalizing s with
  | nil => rfl
  | cons a l ih => simp [ih, h]

@[simp] theorem foldl_health {α : Type} (f : State → α → State) (h : ∀ t a, (f t a).health = t.health) (l : List α) (s : State) :
    (l.foldl f s).health = s.health := by
  induction l generalizing s with
  | nil => rfl
  | cons a l ih => simp [ih, h]

@[simp] theorem foldl_watch {α : Type} (f : State → α → State) (h : ∀ t a, (f t a).watch = t.watch) (l : List α) (s : State) :
    (l.foldl f s).watch = s.watch := by
  induction l generalizing s with
  | nil => rfl
  | cons a l ih => simp [ih, h]

@[simp] theorem foldl_metaCtl {α : Type} (f : State → α → State) (h : ∀ t a, (f t a).metaCtl = t.metaCtl) (l : List α) (s : State) :
    (l.foldl f s).metaCtl = s.metaCtl := by
  induction l generalizing s with
  | nil => rfl
  | cons a l ih => simp [ih, h]

@[simp] theorem foldl_mgmt {α : Type} (f : State → α → State) (h : ∀ t a, (f t a).mgmt = t.mgmt) (l : List α) (s : State) :
    (l.foldl f s).mgmt = s.mgmt := by
  induction l generalizing s with
  | nil => rfl
  | cons a l ih => simp [ih, h]

@[simp] theorem foldl_events {α : Type} (f : State → α → State) (h : ∀ t a, (f t a).events = t.events) (l : List α) (s : State) :
    (l.foldl f s).events = s.events := by
  induction l generalizing s with
  | nil => rfl
  | cons a l ih => simp [ih, h]

@[simp] theorem foldl_pending {α : Type} (f : State → α → State) (h : ∀ t a, (f t a).pending = t.pending) (l : List α) (s : State) :
    (l.foldl f s).pending = s.pending := by
  induction l generalizing s with
  | nil => rfl
  | cons a l ih => simp [ih, h]

@[simp] theorem post_frame (f : Flag) (s : State) :
    (post f s).pins = s.pins ∧ (post f s).path = s.path ∧ (post f s).fence = s.fence ∧ (post f s).tables = s.tables ∧
      (post f s).buffer = s.buffer ∧ (post f s).link = s.link ∧ (post f s).remap = s.remap ∧
      (post f s).health = s.health ∧ (post f s).watch = s.watch ∧ (post f s).metaCtl = s.metaCtl ∧
      (post f s).mgmt = s.mgmt ∧ (post f s).pending = s.pending := by
  simp [post]

@[simp] theorem writeIncident_frame (i : Incident) (s : State) :
    (writeIncident i s).pins = s.pins ∧ (writeIncident i s).path = s.path ∧ (writeIncident i s).fence = s.fence ∧
      (writeIncident i s).tables = s.tables ∧ (writeIncident i s).buffer = s.buffer ∧
      (writeIncident i s).link = s.link ∧ (writeIncident i s).remap = s.remap ∧
      (writeIncident i s).health = s.health ∧ (writeIncident i s).watch = s.watch ∧
      (writeIncident i s).metaCtl = s.metaCtl ∧ (writeIncident i s).mgmt = s.mgmt ∧
      (writeIncident i s).pending = s.pending := by
  unfold writeIncident
  (try dsimp only)
  (repeat' split) <;> simp

@[simp] theorem setQueue_frame (p : Port) (q : List Taken) (s : State) :
    (setQueue p q s).pins = s.pins ∧ (setQueue p q s).fence = s.fence ∧ (setQueue p q s).tables = s.tables ∧
      (setQueue p q s).buffer = s.buffer ∧ (setQueue p q s).link = s.link ∧ (setQueue p q s).remap = s.remap ∧
      (setQueue p q s).health = s.health ∧ (setQueue p q s).watch = s.watch ∧ (setQueue p q s).metaCtl = s.metaCtl ∧
      (setQueue p q s).mgmt = s.mgmt ∧ (setQueue p q s).events = s.events ∧
      (setQueue p q s).pending = s.pending := by
  unfold setQueue
  (try dsimp only)
  (repeat' split) <;> simp

@[simp] theorem setStand_frame (p : Port) (serial : Nat) (st : Stand) (s : State) :
    (setStand p serial st s).pins = s.pins ∧ (setStand p serial st s).fence = s.fence ∧
      (setStand p serial st s).tables = s.tables ∧ (setStand p serial st s).buffer = s.buffer ∧
      (setStand p serial st s).link = s.link ∧ (setStand p serial st s).remap = s.remap ∧
      (setStand p serial st s).health = s.health ∧ (setStand p serial st s).watch = s.watch ∧
      (setStand p serial st s).metaCtl = s.metaCtl ∧ (setStand p serial st s).mgmt = s.mgmt ∧
      (setStand p serial st s).events = s.events ∧ (setStand p serial st s).pending = s.pending := by
  unfold setStand
  simp

@[simp] theorem answer_frame (p : Port) (serial : Nat) (r : Response) (s : State) :
    (answer p serial r s).pins = s.pins ∧ (answer p serial r s).fence = s.fence ∧
      (answer p serial r s).tables = s.tables ∧ (answer p serial r s).buffer = s.buffer ∧
      (answer p serial r s).link = s.link ∧ (answer p serial r s).remap = s.remap ∧
      (answer p serial r s).health = s.health ∧ (answer p serial r s).watch = s.watch ∧
      (answer p serial r s).metaCtl = s.metaCtl ∧ (answer p serial r s).mgmt = s.mgmt ∧
      (answer p serial r s).events = s.events ∧ (answer p serial r s).pending = s.pending := by
  simp [answer]

@[simp] theorem setRecord_frame (slot : Nat) (r : SlotRecord) (s : State) :
    (setRecord slot r s).pins = s.pins ∧ (setRecord slot r s).path = s.path ∧ (setRecord slot r s).fence = s.fence ∧
      (setRecord slot r s).tables = s.tables ∧ (setRecord slot r s).buffer = s.buffer ∧
      (setRecord slot r s).link = s.link ∧ (setRecord slot r s).health = s.health ∧
      (setRecord slot r s).watch = s.watch ∧ (setRecord slot r s).metaCtl = s.metaCtl ∧
      (setRecord slot r s).mgmt = s.mgmt ∧ (setRecord slot r s).events = s.events ∧
      (setRecord slot r s).pending = s.pending := by
  unfold setRecord
  (try dsimp only)
  simp

@[simp] theorem postThresholds_frame (before : Nat) (s : State) :
    (postThresholds before s).pins = s.pins ∧ (postThresholds before s).path = s.path ∧
      (postThresholds before s).fence = s.fence ∧ (postThresholds before s).tables = s.tables ∧
      (postThresholds before s).buffer = s.buffer ∧ (postThresholds before s).link = s.link ∧
      (postThresholds before s).remap = s.remap ∧ (postThresholds before s).health = s.health ∧
      (postThresholds before s).watch = s.watch ∧ (postThresholds before s).metaCtl = s.metaCtl ∧
      (postThresholds before s).mgmt = s.mgmt ∧ (postThresholds before s).pending = s.pending := by
  unfold postThresholds
  (try dsimp only)
  (repeat' split) <;> simp

@[simp] theorem killSlot_frame (slot : Nat) (s : State) :
    (killSlot slot s).pins = s.pins ∧ (killSlot slot s).path = s.path ∧ (killSlot slot s).fence = s.fence ∧
      (killSlot slot s).tables = s.tables ∧ (killSlot slot s).buffer = s.buffer ∧ (killSlot slot s).link = s.link ∧
      (killSlot slot s).health = s.health ∧ (killSlot slot s).watch = s.watch ∧
      (killSlot slot s).metaCtl = s.metaCtl ∧ (killSlot slot s).mgmt = s.mgmt ∧
      (killSlot slot s).pending = s.pending := by
  simp [killSlot]

@[simp] theorem completeWith_frame (r : ResultCode) (data : List Word) (s : State) :
    (completeWith r data s).pins = s.pins ∧ (completeWith r data s).path = s.path ∧
      (completeWith r data s).fence = s.fence ∧ (completeWith r data s).tables = s.tables ∧
      (completeWith r data s).buffer = s.buffer ∧ (completeWith r data s).link = s.link ∧
      (completeWith r data s).remap = s.remap ∧ (completeWith r data s).health = s.health ∧
      (completeWith r data s).watch = s.watch ∧ (completeWith r data s).metaCtl = s.metaCtl ∧
      (completeWith r data s).pending = s.pending := by
  simp [completeWith]

@[simp] theorem complete_frame (r : ResultCode) (s : State) :
    (complete r s).pins = s.pins ∧ (complete r s).path = s.path ∧ (complete r s).fence = s.fence ∧
      (complete r s).tables = s.tables ∧ (complete r s).buffer = s.buffer ∧ (complete r s).link = s.link ∧
      (complete r s).remap = s.remap ∧ (complete r s).health = s.health ∧ (complete r s).watch = s.watch ∧
      (complete r s).metaCtl = s.metaCtl ∧ (complete r s).pending = s.pending := by
  simp [complete]

@[simp] theorem setPhase_frame (p : Phase) (s : State) :
    (setPhase p s).pins = s.pins ∧ (setPhase p s).path = s.path ∧ (setPhase p s).fence = s.fence ∧
      (setPhase p s).tables = s.tables ∧ (setPhase p s).buffer = s.buffer ∧ (setPhase p s).link = s.link ∧
      (setPhase p s).remap = s.remap ∧ (setPhase p s).health = s.health ∧ (setPhase p s).watch = s.watch ∧
      (setPhase p s).mgmt = s.mgmt ∧ (setPhase p s).pending = s.pending := by
  simp [setPhase]

@[simp] theorem placeOp_frame (op : ArrayOp) (s : State) :
    (placeOp op s).pins = s.pins ∧ (placeOp op s).path = s.path ∧ (placeOp op s).fence = s.fence ∧
      (placeOp op s).tables = s.tables ∧ (placeOp op s).buffer = s.buffer ∧ (placeOp op s).remap = s.remap ∧
      (placeOp op s).health = s.health ∧ (placeOp op s).watch = s.watch ∧ (placeOp op s).metaCtl = s.metaCtl ∧
      (placeOp op s).mgmt = s.mgmt ∧ (placeOp op s).events = s.events ∧ (placeOp op s).pending = s.pending := by
  simp [placeOp]

@[simp] theorem placeRead_frame (serial arrayLine : Nat) (s : State) :
    (placeRead serial arrayLine s).pins = s.pins ∧ (placeRead serial arrayLine s).path = s.path ∧
      (placeRead serial arrayLine s).fence = s.fence ∧ (placeRead serial arrayLine s).tables = s.tables ∧
      (placeRead serial arrayLine s).buffer = s.buffer ∧ (placeRead serial arrayLine s).remap = s.remap ∧
      (placeRead serial arrayLine s).health = s.health ∧ (placeRead serial arrayLine s).watch = s.watch ∧
      (placeRead serial arrayLine s).metaCtl = s.metaCtl ∧ (placeRead serial arrayLine s).mgmt = s.mgmt ∧
      (placeRead serial arrayLine s).events = s.events ∧ (placeRead serial arrayLine s).pending = s.pending := by
  simp [placeRead]

@[simp] theorem removeWork_frame (gone : ArrayOp → Bool) (s : State) :
    (removeWork gone s).pins = s.pins ∧ (removeWork gone s).path = s.path ∧ (removeWork gone s).fence = s.fence ∧
      (removeWork gone s).tables = s.tables ∧ (removeWork gone s).buffer = s.buffer ∧
      (removeWork gone s).remap = s.remap ∧ (removeWork gone s).health = s.health ∧
      (removeWork gone s).watch = s.watch ∧ (removeWork gone s).metaCtl = s.metaCtl ∧
      (removeWork gone s).mgmt = s.mgmt ∧ (removeWork gone s).events = s.events ∧
      (removeWork gone s).pending = s.pending := by
  simp [removeWork]

@[simp] theorem requestMeta_frame (t : MetaLine) (a : MetaAsker) (s : State) :
    (requestMeta t a s).pins = s.pins ∧ (requestMeta t a s).path = s.path ∧ (requestMeta t a s).fence = s.fence ∧
      (requestMeta t a s).tables = s.tables ∧ (requestMeta t a s).buffer = s.buffer ∧
      (requestMeta t a s).remap = s.remap ∧ (requestMeta t a s).health = s.health ∧
      (requestMeta t a s).watch = s.watch ∧ (requestMeta t a s).metaCtl = s.metaCtl ∧
      (requestMeta t a s).mgmt = s.mgmt ∧ (requestMeta t a s).events = s.events ∧
      (requestMeta t a s).pending = s.pending := by
  unfold requestMeta
  (try dsimp only)
  (repeat' split) <;> simp

@[simp] theorem stopGrantTimer_frame (s : State) :
    (stopGrantTimer s).pins = s.pins ∧ (stopGrantTimer s).path = s.path ∧ (stopGrantTimer s).fence = s.fence ∧
      (stopGrantTimer s).tables = s.tables ∧ (stopGrantTimer s).buffer = s.buffer ∧
      (stopGrantTimer s).remap = s.remap ∧ (stopGrantTimer s).health = s.health ∧ (stopGrantTimer s).watch = s.watch ∧
      (stopGrantTimer s).metaCtl = s.metaCtl ∧ (stopGrantTimer s).mgmt = s.mgmt ∧
      (stopGrantTimer s).events = s.events ∧ (stopGrantTimer s).pending = s.pending := by
  unfold stopGrantTimer
  (try dsimp only)
  (repeat' split) <;> simp

@[simp] theorem freePort_frame (s : State) :
    (freePort s).pins = s.pins ∧ (freePort s).path = s.path ∧ (freePort s).fence = s.fence ∧
      (freePort s).tables = s.tables ∧ (freePort s).buffer = s.buffer ∧ (freePort s).remap = s.remap ∧
      (freePort s).health = s.health ∧ (freePort s).watch = s.watch ∧ (freePort s).metaCtl = s.metaCtl ∧
      (freePort s).mgmt = s.mgmt ∧ (freePort s).events = s.events ∧ (freePort s).pending = s.pending := by
  simp [freePort]

@[simp] theorem setClaims_frame (line : Nat) (r : ClaimRecord) (s : State) :
    (setClaims line r s).pins = s.pins ∧ (setClaims line r s).path = s.path ∧ (setClaims line r s).fence = s.fence ∧
      (setClaims line r s).tables = s.tables ∧ (setClaims line r s).buffer = s.buffer ∧
      (setClaims line r s).remap = s.remap ∧ (setClaims line r s).health = s.health ∧
      (setClaims line r s).watch = s.watch ∧ (setClaims line r s).metaCtl = s.metaCtl ∧
      (setClaims line r s).mgmt = s.mgmt ∧ (setClaims line r s).events = s.events ∧
      (setClaims line r s).pending = s.pending := by
  unfold setClaims
  (try dsimp only)
  simp

@[simp] theorem requestClaim_frame (line : Nat) (k : ClaimKind) (o : Claimant) (s : State) :
    (requestClaim line k o s).pins = s.pins ∧ (requestClaim line k o s).path = s.path ∧
      (requestClaim line k o s).fence = s.fence ∧ (requestClaim line k o s).tables = s.tables ∧
      (requestClaim line k o s).buffer = s.buffer ∧ (requestClaim line k o s).remap = s.remap ∧
      (requestClaim line k o s).health = s.health ∧ (requestClaim line k o s).watch = s.watch ∧
      (requestClaim line k o s).metaCtl = s.metaCtl ∧ (requestClaim line k o s).mgmt = s.mgmt ∧
      (requestClaim line k o s).events = s.events ∧ (requestClaim line k o s).pending = s.pending := by
  unfold requestClaim
  (try dsimp only)
  (repeat' split) <;> simp

@[simp] theorem dropClaim_frame (line : Nat) (o : Claimant) (s : State) :
    (dropClaim line o s).pins = s.pins ∧ (dropClaim line o s).path = s.path ∧ (dropClaim line o s).fence = s.fence ∧
      (dropClaim line o s).tables = s.tables ∧ (dropClaim line o s).buffer = s.buffer ∧
      (dropClaim line o s).remap = s.remap ∧ (dropClaim line o s).health = s.health ∧
      (dropClaim line o s).watch = s.watch ∧ (dropClaim line o s).metaCtl = s.metaCtl ∧
      (dropClaim line o s).mgmt = s.mgmt ∧ (dropClaim line o s).events = s.events ∧
      (dropClaim line o s).pending = s.pending := by
  simp [dropClaim]

@[simp] theorem advanceRepair_frame (s : State) :
    (advanceRepair s).pins = s.pins ∧ (advanceRepair s).path = s.path ∧ (advanceRepair s).fence = s.fence ∧
      (advanceRepair s).tables = s.tables ∧ (advanceRepair s).buffer = s.buffer ∧ (advanceRepair s).remap = s.remap ∧
      (advanceRepair s).health = s.health ∧ (advanceRepair s).watch = s.watch ∧ (advanceRepair s).mgmt = s.mgmt ∧
      (advanceRepair s).pending = s.pending := by
  unfold advanceRepair
  (repeat' split) <;> simp

@[simp] theorem enterRepairing_frame (s : State) :
    (enterRepairing s).pins = s.pins ∧ (enterRepairing s).path = s.path ∧ (enterRepairing s).fence = s.fence ∧
      (enterRepairing s).tables = s.tables ∧ (enterRepairing s).buffer = s.buffer ∧
      (enterRepairing s).remap = s.remap ∧ (enterRepairing s).health = s.health ∧ (enterRepairing s).watch = s.watch ∧
      (enterRepairing s).mgmt = s.mgmt ∧ (enterRepairing s).pending = s.pending := by
  simp [enterRepairing]

@[simp] theorem follow_frame (s : State) :
    (follow s).pins = s.pins ∧ (follow s).path = s.path ∧ (follow s).fence = s.fence ∧ (follow s).tables = s.tables ∧
      (follow s).buffer = s.buffer ∧ (follow s).remap = s.remap ∧ (follow s).health = s.health ∧
      (follow s).watch = s.watch ∧ (follow s).mgmt = s.mgmt ∧ (follow s).pending = s.pending := by
  unfold follow
  (repeat' split) <;> simp

@[simp] theorem settle_frame (s : State) :
    (settle s).pins = s.pins ∧ (settle s).path = s.path ∧ (settle s).fence = s.fence ∧ (settle s).tables = s.tables ∧
      (settle s).buffer = s.buffer ∧ (settle s).remap = s.remap ∧ (settle s).health = s.health ∧
      (settle s).watch = s.watch ∧ (settle s).mgmt = s.mgmt ∧ (settle s).pending = s.pending := by
  simp [settle]

@[simp] theorem removeCandidate_frame (line : Nat) (s : State) :
    (removeCandidate line s).pins = s.pins ∧ (removeCandidate line s).path = s.path ∧
      (removeCandidate line s).fence = s.fence ∧ (removeCandidate line s).tables = s.tables ∧
      (removeCandidate line s).buffer = s.buffer ∧ (removeCandidate line s).link = s.link ∧
      (removeCandidate line s).remap = s.remap ∧ (removeCandidate line s).watch = s.watch ∧
      (removeCandidate line s).metaCtl = s.metaCtl ∧ (removeCandidate line s).mgmt = s.mgmt ∧
      (removeCandidate line s).events = s.events ∧ (removeCandidate line s).pending = s.pending := by
  simp [removeCandidate]

@[simp] theorem removeQueuedJob_frame (line : Nat) (s : State) :
    (removeQueuedJob line s).pins = s.pins ∧ (removeQueuedJob line s).path = s.path ∧
      (removeQueuedJob line s).fence = s.fence ∧ (removeQueuedJob line s).tables = s.tables ∧
      (removeQueuedJob line s).buffer = s.buffer ∧ (removeQueuedJob line s).link = s.link ∧
      (removeQueuedJob line s).remap = s.remap ∧ (removeQueuedJob line s).watch = s.watch ∧
      (removeQueuedJob line s).metaCtl = s.metaCtl ∧ (removeQueuedJob line s).mgmt = s.mgmt ∧
      (removeQueuedJob line s).events = s.events ∧ (removeQueuedJob line s).pending = s.pending := by
  simp [removeQueuedJob]

@[simp] theorem candidateLost_frame (line : Nat) (s : State) :
    (candidateLost line s).pins = s.pins ∧ (candidateLost line s).path = s.path ∧
      (candidateLost line s).fence = s.fence ∧ (candidateLost line s).tables = s.tables ∧
      (candidateLost line s).buffer = s.buffer ∧ (candidateLost line s).link = s.link ∧
      (candidateLost line s).remap = s.remap ∧ (candidateLost line s).health = s.health ∧
      (candidateLost line s).watch = s.watch ∧ (candidateLost line s).metaCtl = s.metaCtl ∧
      (candidateLost line s).mgmt = s.mgmt ∧ (candidateLost line s).pending = s.pending := by
  simp [candidateLost]

@[simp] theorem requestNoData_frame (line : Nat) (origin : Origin) (s : State) :
    (requestNoData line origin s).pins = s.pins ∧ (requestNoData line origin s).path = s.path ∧
      (requestNoData line origin s).fence = s.fence ∧ (requestNoData line origin s).tables = s.tables ∧
      (requestNoData line origin s).buffer = s.buffer ∧ (requestNoData line origin s).link = s.link ∧
      (requestNoData line origin s).health = s.health ∧ (requestNoData line origin s).watch = s.watch ∧
      (requestNoData line origin s).metaCtl = s.metaCtl ∧ (requestNoData line origin s).mgmt = s.mgmt ∧
      (requestNoData line origin s).pending = s.pending := by
  unfold requestNoData
  (try dsimp only)
  (repeat' split) <;> simp

@[simp] theorem offer_frame (line : Nat) (source : Source) (s : State) :
    (offer line source s).pins = s.pins ∧ (offer line source s).path = s.path ∧
      (offer line source s).fence = s.fence ∧ (offer line source s).tables = s.tables ∧
      (offer line source s).buffer = s.buffer ∧ (offer line source s).link = s.link ∧
      (offer line source s).watch = s.watch ∧ (offer line source s).metaCtl = s.metaCtl ∧
      (offer line source s).mgmt = s.mgmt ∧ (offer line source s).pending = s.pending := by
  unfold offer
  (try dsimp only)
  (repeat' split) <;> simp

@[simp] theorem need_frame (line : Nat) (reason : Reason) (s : State) :
    (need line reason s).pins = s.pins ∧ (need line reason s).path = s.path ∧ (need line reason s).fence = s.fence ∧
      (need line reason s).tables = s.tables ∧ (need line reason s).buffer = s.buffer ∧
      (need line reason s).link = s.link ∧ (need line reason s).remap = s.remap ∧
      (need line reason s).watch = s.watch ∧ (need line reason s).metaCtl = s.metaCtl ∧
      (need line reason s).mgmt = s.mgmt ∧ (need line reason s).pending = s.pending := by
  unfold need
  (try dsimp only)
  (repeat' split) <;> simp

@[simp] theorem endJob_frame (line : Nat) (s : State) :
    (endJob line s).pins = s.pins ∧ (endJob line s).path = s.path ∧ (endJob line s).fence = s.fence ∧
      (endJob line s).tables = s.tables ∧ (endJob line s).buffer = s.buffer ∧ (endJob line s).remap = s.remap ∧
      (endJob line s).watch = s.watch ∧ (endJob line s).metaCtl = s.metaCtl ∧ (endJob line s).mgmt = s.mgmt ∧
      (endJob line s).events = s.events ∧ (endJob line s).pending = s.pending := by
  simp [endJob]

@[simp] theorem mergeEntry_frame (line : Nat) (mask : Mask) (data : LineData) (s : State) :
    (mergeEntry line mask data s).pins = s.pins ∧ (mergeEntry line mask data s).path = s.path ∧
      (mergeEntry line mask data s).fence = s.fence ∧ (mergeEntry line mask data s).tables = s.tables ∧
      (mergeEntry line mask data s).link = s.link ∧ (mergeEntry line mask data s).remap = s.remap ∧
      (mergeEntry line mask data s).health = s.health ∧ (mergeEntry line mask data s).watch = s.watch ∧
      (mergeEntry line mask data s).metaCtl = s.metaCtl ∧ (mergeEntry line mask data s).mgmt = s.mgmt ∧
      (mergeEntry line mask data s).events = s.events ∧ (mergeEntry line mask data s).pending = s.pending := by
  unfold mergeEntry
  (try dsimp only)
  simp

@[simp] theorem createEntry_frame (p : Port) (line : Nat) (mask : Mask) (data : LineData) (s : State) :
    (createEntry p line mask data s).pins = s.pins ∧ (createEntry p line mask data s).path = s.path ∧
      (createEntry p line mask data s).fence = s.fence ∧ (createEntry p line mask data s).tables = s.tables ∧
      (createEntry p line mask data s).link = s.link ∧ (createEntry p line mask data s).remap = s.remap ∧
      (createEntry p line mask data s).health = s.health ∧ (createEntry p line mask data s).watch = s.watch ∧
      (createEntry p line mask data s).metaCtl = s.metaCtl ∧ (createEntry p line mask data s).mgmt = s.mgmt ∧
      (createEntry p line mask data s).events = s.events ∧
      (createEntry p line mask data s).pending = s.pending := by
  simp [createEntry]

theorem placePosted_frame (p : Port) (line : Nat) (mask : Mask) (data : LineData) (s : State) {t : State} (h : placePosted p line mask data s = some t) :
    t.pins = s.pins ∧ t.path = s.path ∧ t.fence = s.fence ∧ t.tables = s.tables ∧ t.link = s.link ∧
      t.remap = s.remap ∧ t.health = s.health ∧ t.watch = s.watch ∧ t.metaCtl = s.metaCtl ∧ t.mgmt = s.mgmt ∧
      t.events = s.events ∧ t.pending = s.pending := by
  unfold placePosted at h
  (repeat' split at h) <;> simp at h <;> subst h <;> simp

@[simp] theorem setThrough_frame (serial : Nat) (f : ThroughWrite → ThroughWrite) (s : State) :
    (setThrough serial f s).pins = s.pins ∧ (setThrough serial f s).fence = s.fence ∧
      (setThrough serial f s).tables = s.tables ∧ (setThrough serial f s).buffer = s.buffer ∧
      (setThrough serial f s).link = s.link ∧ (setThrough serial f s).remap = s.remap ∧
      (setThrough serial f s).health = s.health ∧ (setThrough serial f s).watch = s.watch ∧
      (setThrough serial f s).metaCtl = s.metaCtl ∧ (setThrough serial f s).mgmt = s.mgmt ∧
      (setThrough serial f s).events = s.events ∧ (setThrough serial f s).pending = s.pending := by
  unfold setThrough
  (try dsimp only)
  simp

@[simp] theorem setCourse_frame (w : Writer) (c : Course) (s : State) :
    (setCourse w c s).pins = s.pins ∧ (setCourse w c s).fence = s.fence ∧ (setCourse w c s).tables = s.tables ∧
      (setCourse w c s).link = s.link ∧ (setCourse w c s).remap = s.remap ∧ (setCourse w c s).health = s.health ∧
      (setCourse w c s).watch = s.watch ∧ (setCourse w c s).metaCtl = s.metaCtl ∧ (setCourse w c s).mgmt = s.mgmt ∧
      (setCourse w c s).events = s.events ∧ (setCourse w c s).pending = s.pending := by
  unfold setCourse
  (try dsimp only)
  (repeat' split) <;> simp

@[simp] theorem joinWork_frame (r : Request) (s : State) :
    (joinWork r s).pins = s.pins ∧ (joinWork r s).fence = s.fence ∧ (joinWork r s).tables = s.tables ∧
      (joinWork r s).buffer = s.buffer ∧ (joinWork r s).link = s.link ∧ (joinWork r s).health = s.health ∧
      (joinWork r s).watch = s.watch ∧ (joinWork r s).metaCtl = s.metaCtl ∧ (joinWork r s).mgmt = s.mgmt ∧
      (joinWork r s).events = s.events ∧ (joinWork r s).pending = s.pending := by
  unfold joinWork
  (try dsimp only)
  (repeat' split) <;> simp

@[simp] theorem placeCourseOp_frame (purpose : Purpose) (line : Nat) (action : OpAction) (first : Bool) (s : State) :
    (placeCourseOp purpose line action first s).pins = s.pins ∧
      (placeCourseOp purpose line action first s).path = s.path ∧
      (placeCourseOp purpose line action first s).fence = s.fence ∧
      (placeCourseOp purpose line action first s).tables = s.tables ∧
      (placeCourseOp purpose line action first s).buffer = s.buffer ∧
      (placeCourseOp purpose line action first s).remap = s.remap ∧
      (placeCourseOp purpose line action first s).health = s.health ∧
      (placeCourseOp purpose line action first s).watch = s.watch ∧
      (placeCourseOp purpose line action first s).metaCtl = s.metaCtl ∧
      (placeCourseOp purpose line action first s).mgmt = s.mgmt ∧
      (placeCourseOp purpose line action first s).events = s.events ∧
      (placeCourseOp purpose line action first s).pending = s.pending := by
  simp [placeCourseOp]

@[simp] theorem orderByGrant_frame (w : Writer) (s : State) :
    (orderByGrant w s).pins = s.pins ∧ (orderByGrant w s).fence = s.fence ∧ (orderByGrant w s).tables = s.tables ∧
      (orderByGrant w s).buffer = s.buffer ∧ (orderByGrant w s).link = s.link ∧ (orderByGrant w s).remap = s.remap ∧
      (orderByGrant w s).health = s.health ∧ (orderByGrant w s).watch = s.watch ∧
      (orderByGrant w s).metaCtl = s.metaCtl ∧ (orderByGrant w s).mgmt = s.mgmt ∧
      (orderByGrant w s).events = s.events ∧ (orderByGrant w s).pending = s.pending := by
  unfold orderByGrant
  (try dsimp only)
  (repeat' split) <;> simp

@[simp] theorem startCourse_frame (w : Writer) (line : Nat) (mask : Mask) (bytes : LineData) (s : State) :
    (startCourse w line mask bytes s).pins = s.pins ∧ (startCourse w line mask bytes s).fence = s.fence ∧
      (startCourse w line mask bytes s).tables = s.tables ∧ (startCourse w line mask bytes s).health = s.health ∧
      (startCourse w line mask bytes s).watch = s.watch ∧ (startCourse w line mask bytes s).metaCtl = s.metaCtl ∧
      (startCourse w line mask bytes s).mgmt = s.mgmt ∧ (startCourse w line mask bytes s).events = s.events ∧
      (startCourse w line mask bytes s).pending = s.pending := by
  unfold startCourse
  (try dsimp only)
  (repeat' split) <;> simp

@[simp] theorem reportLoss_frame (e : SystemEntry) (cause : LossCause) (s : State) :
    (reportLoss e cause s).pins = s.pins ∧ (reportLoss e cause s).path = s.path ∧
      (reportLoss e cause s).fence = s.fence ∧ (reportLoss e cause s).tables = s.tables ∧
      (reportLoss e cause s).buffer = s.buffer ∧ (reportLoss e cause s).link = s.link ∧
      (reportLoss e cause s).remap = s.remap ∧ (reportLoss e cause s).health = s.health ∧
      (reportLoss e cause s).watch = s.watch ∧ (reportLoss e cause s).metaCtl = s.metaCtl ∧
      (reportLoss e cause s).pending = s.pending := by
  unfold reportLoss
  (try dsimp only)
  (repeat' split) <;> simp

@[simp] theorem endDrain_frame (e : Ending) (s : State) :
    (endDrain e s).pins = s.pins ∧ (endDrain e s).path = s.path ∧ (endDrain e s).fence = s.fence ∧
      (endDrain e s).tables = s.tables ∧ (endDrain e s).remap = s.remap ∧ (endDrain e s).health = s.health ∧
      (endDrain e s).watch = s.watch ∧ (endDrain e s).metaCtl = s.metaCtl ∧ (endDrain e s).pending = s.pending := by
  unfold endDrain
  (try dsimp only)
  (repeat' split) <;> simp

@[simp] theorem dropThrough_frame (t : ThroughWrite) (s : State) :
    (dropThrough t s).pins = s.pins ∧ (dropThrough t s).fence = s.fence ∧ (dropThrough t s).tables = s.tables ∧
      (dropThrough t s).buffer = s.buffer ∧ (dropThrough t s).remap = s.remap ∧ (dropThrough t s).health = s.health ∧
      (dropThrough t s).watch = s.watch ∧ (dropThrough t s).metaCtl = s.metaCtl ∧ (dropThrough t s).mgmt = s.mgmt ∧
      (dropThrough t s).events = s.events ∧ (dropThrough t s).pending = s.pending := by
  simp [dropThrough]

@[simp] theorem answerThrough_frame (t : ThroughWrite) (code : ResponseCode) (s : State) :
    (answerThrough t code s).pins = s.pins ∧ (answerThrough t code s).fence = s.fence ∧
      (answerThrough t code s).tables = s.tables ∧ (answerThrough t code s).buffer = s.buffer ∧
      (answerThrough t code s).link = s.link ∧ (answerThrough t code s).remap = s.remap ∧
      (answerThrough t code s).health = s.health ∧ (answerThrough t code s).watch = s.watch ∧
      (answerThrough t code s).metaCtl = s.metaCtl ∧ (answerThrough t code s).mgmt = s.mgmt ∧
      (answerThrough t code s).events = s.events ∧ (answerThrough t code s).pending = s.pending := by
  unfold answerThrough
  (repeat' split) <;> simp

@[simp] theorem endThrough_frame (serial : Nat) (e : Ending) (s : State) :
    (endThrough serial e s).pins = s.pins ∧ (endThrough serial e s).fence = s.fence ∧
      (endThrough serial e s).tables = s.tables ∧ (endThrough serial e s).buffer = s.buffer ∧
      (endThrough serial e s).remap = s.remap ∧ (endThrough serial e s).health = s.health ∧
      (endThrough serial e s).watch = s.watch ∧ (endThrough serial e s).metaCtl = s.metaCtl ∧
      (endThrough serial e s).mgmt = s.mgmt ∧ (endThrough serial e s).events = s.events ∧
      (endThrough serial e s).pending = s.pending := by
  unfold endThrough
  (try dsimp only)
  (repeat' split) <;> simp

@[simp] theorem endCourse_frame (w : Writer) (e : Ending) (s : State) :
    (endCourse w e s).pins = s.pins ∧ (endCourse w e s).fence = s.fence ∧ (endCourse w e s).tables = s.tables ∧
      (endCourse w e s).remap = s.remap ∧ (endCourse w e s).health = s.health ∧ (endCourse w e s).watch = s.watch ∧
      (endCourse w e s).metaCtl = s.metaCtl ∧ (endCourse w e s).pending = s.pending := by
  unfold endCourse
  (repeat' split) <;> simp

@[simp] theorem recordOrEnd_frame (w : Writer) (c : Course) (s : State) :
    (recordOrEnd w c s).pins = s.pins ∧ (recordOrEnd w c s).fence = s.fence ∧ (recordOrEnd w c s).tables = s.tables ∧
      (recordOrEnd w c s).health = s.health ∧ (recordOrEnd w c s).watch = s.watch ∧
      (recordOrEnd w c s).metaCtl = s.metaCtl ∧ (recordOrEnd w c s).pending = s.pending := by
  unfold recordOrEnd
  (repeat' split) <;> simp

@[simp] theorem claimThrough_frame (t : ThroughWrite) (s : State) :
    (claimThrough t s).pins = s.pins ∧ (claimThrough t s).fence = s.fence ∧ (claimThrough t s).tables = s.tables ∧
      (claimThrough t s).health = s.health ∧ (claimThrough t s).watch = s.watch ∧
      (claimThrough t s).metaCtl = s.metaCtl ∧ (claimThrough t s).mgmt = s.mgmt ∧
      (claimThrough t s).events = s.events ∧ (claimThrough t s).pending = s.pending := by
  unfold claimThrough
  (try dsimp only)
  (repeat' split) <;> simp

@[simp] theorem conclude_frame (v : Verdict) (s : State) :
    (conclude v s).pins = s.pins ∧ (conclude v s).fence = s.fence ∧ (conclude v s).tables = s.tables ∧
      (conclude v s).watch = s.watch ∧ (conclude v s).metaCtl = s.metaCtl ∧ (conclude v s).pending = s.pending := by
  unfold conclude
  (try dsimp only)
  (repeat' split) <;> simp

@[simp] theorem setServing_frame (v : Serving) (s : State) :
    (setServing v s).pins = s.pins ∧ (setServing v s).path = s.path ∧ (setServing v s).fence = s.fence ∧
      (setServing v s).tables = s.tables ∧ (setServing v s).buffer = s.buffer ∧ (setServing v s).link = s.link ∧
      (setServing v s).health = s.health ∧ (setServing v s).watch = s.watch ∧ (setServing v s).metaCtl = s.metaCtl ∧
      (setServing v s).mgmt = s.mgmt ∧ (setServing v s).events = s.events ∧
      (setServing v s).pending = s.pending := by
  simp [setServing]

@[simp] theorem requestImage_frame (slot : Nat) (s : State) :
    (requestImage slot s).pins = s.pins ∧ (requestImage slot s).path = s.path ∧
      (requestImage slot s).fence = s.fence ∧ (requestImage slot s).tables = s.tables ∧
      (requestImage slot s).buffer = s.buffer ∧ (requestImage slot s).remap = s.remap ∧
      (requestImage slot s).health = s.health ∧ (requestImage slot s).watch = s.watch ∧
      (requestImage slot s).metaCtl = s.metaCtl ∧ (requestImage slot s).mgmt = s.mgmt ∧
      (requestImage slot s).events = s.events ∧ (requestImage slot s).pending = s.pending := by
  simp [requestImage]

@[simp] theorem placeInUse_frame (slot : Nat) (s : State) :
    (placeInUse slot s).pins = s.pins ∧ (placeInUse slot s).path = s.path ∧ (placeInUse slot s).fence = s.fence ∧
      (placeInUse slot s).tables = s.tables ∧ (placeInUse slot s).buffer = s.buffer ∧
      (placeInUse slot s).health = s.health ∧ (placeInUse slot s).watch = s.watch ∧
      (placeInUse slot s).metaCtl = s.metaCtl ∧ (placeInUse slot s).mgmt = s.mgmt ∧
      (placeInUse slot s).events = s.events ∧ (placeInUse slot s).pending = s.pending := by
  unfold placeInUse
  (repeat' split) <;> simp

@[simp] theorem judgeReassign_frame (s : State) :
    (judgeReassign s).pins = s.pins ∧ (judgeReassign s).fence = s.fence ∧ (judgeReassign s).tables = s.tables ∧
      (judgeReassign s).watch = s.watch ∧ (judgeReassign s).metaCtl = s.metaCtl ∧
      (judgeReassign s).pending = s.pending := by
  unfold judgeReassign
  (repeat' split) <;> simp

@[simp] theorem spareDone_frame (slot : Nat) (ok : Bool) (s : State) :
    (spareDone slot ok s).pins = s.pins ∧ (spareDone slot ok s).fence = s.fence ∧
      (spareDone slot ok s).tables = s.tables ∧ (spareDone slot ok s).watch = s.watch ∧
      (spareDone slot ok s).metaCtl = s.metaCtl ∧ (spareDone slot ok s).pending = s.pending := by
  unfold spareDone
  (try dsimp only)
  (repeat' split) <;> simp

@[simp] theorem goLive_frame (slot : Nat) (s : State) :
    (goLive slot s).pins = s.pins ∧ (goLive slot s).fence = s.fence ∧ (goLive slot s).tables = s.tables ∧
      (goLive slot s).watch = s.watch ∧ (goLive slot s).metaCtl = s.metaCtl ∧
      (goLive slot s).pending = s.pending := by
  unfold goLive
  (try dsimp only)
  (repeat' split) <;> simp

@[simp] theorem setDataState_frame (line : Nat) (data : DataState) (s : State) :
    (setDataState line data s).pins = s.pins ∧ (setDataState line data s).path = s.path ∧
      (setDataState line data s).fence = s.fence ∧ (setDataState line data s).tables = s.tables ∧
      (setDataState line data s).buffer = s.buffer ∧ (setDataState line data s).link = s.link ∧
      (setDataState line data s).health = s.health ∧ (setDataState line data s).watch = s.watch ∧
      (setDataState line data s).metaCtl = s.metaCtl ∧ (setDataState line data s).mgmt = s.mgmt ∧
      (setDataState line data s).events = s.events ∧ (setDataState line data s).pending = s.pending := by
  unfold setDataState
  (try dsimp only)
  (repeat' split) <;> simp

@[simp] theorem beginRecording_frame (line : Nat) (known : Mask) (s : State) :
    (beginRecording line known s).pins = s.pins ∧ (beginRecording line known s).fence = s.fence ∧
      (beginRecording line known s).tables = s.tables ∧ (beginRecording line known s).watch = s.watch ∧
      (beginRecording line known s).metaCtl = s.metaCtl ∧ (beginRecording line known s).pending = s.pending := by
  unfold beginRecording
  (try dsimp only)
  (repeat' split) <;> simp

@[simp] theorem storageToReassign_frame (s : State) :
    (storageToReassign s).pins = s.pins ∧ (storageToReassign s).fence = s.fence ∧
      (storageToReassign s).tables = s.tables ∧ (storageToReassign s).watch = s.watch ∧
      (storageToReassign s).metaCtl = s.metaCtl ∧ (storageToReassign s).pending = s.pending := by
  unfold storageToReassign
  (try dsimp only)
  (repeat' split) <;> simp

@[simp] theorem serveStorage_frame (s : State) :
    (serveStorage s).pins = s.pins ∧ (serveStorage s).fence = s.fence ∧ (serveStorage s).tables = s.tables ∧
      (serveStorage s).watch = s.watch ∧ (serveStorage s).metaCtl = s.metaCtl ∧
      (serveStorage s).pending = s.pending := by
  unfold serveStorage
  (repeat' split) <;> simp

@[simp] theorem storageDone_frame (ok : Bool) (s : State) :
    (storageDone ok s).pins = s.pins ∧ (storageDone ok s).fence = s.fence ∧ (storageDone ok s).tables = s.tables ∧
      (storageDone ok s).watch = s.watch ∧ (storageDone ok s).metaCtl = s.metaCtl ∧
      (storageDone ok s).pending = s.pending := by
  unfold storageDone
  (repeat' split) <;> simp

@[simp] theorem imageDone_frame (ok : Bool) (s : State) :
    (imageDone ok s).pins = s.pins ∧ (imageDone ok s).fence = s.fence ∧ (imageDone ok s).tables = s.tables ∧
      (imageDone ok s).watch = s.watch ∧ (imageDone ok s).metaCtl = s.metaCtl ∧
      (imageDone ok s).pending = s.pending := by
  unfold imageDone
  (repeat' split) <;> simp

@[simp] theorem imageWithdrawn_frame (s : State) :
    (imageWithdrawn s).pins = s.pins ∧ (imageWithdrawn s).fence = s.fence ∧ (imageWithdrawn s).tables = s.tables ∧
      (imageWithdrawn s).watch = s.watch ∧ (imageWithdrawn s).metaCtl = s.metaCtl ∧
      (imageWithdrawn s).pending = s.pending := by
  unfold imageWithdrawn
  (repeat' split) <;> simp

@[simp] theorem settingsFailed_frame (s : State) :
    (settingsFailed s).pins = s.pins ∧ (settingsFailed s).path = s.path ∧ (settingsFailed s).fence = s.fence ∧
      (settingsFailed s).tables = s.tables ∧ (settingsFailed s).buffer = s.buffer ∧ (settingsFailed s).link = s.link ∧
      (settingsFailed s).remap = s.remap ∧ (settingsFailed s).health = s.health ∧ (settingsFailed s).watch = s.watch ∧
      (settingsFailed s).metaCtl = s.metaCtl ∧ (settingsFailed s).pending = s.pending := by
  unfold settingsFailed
  (repeat' split) <;> simp

@[simp] theorem unlistRepair_frame (t : MetaLine) (s : State) :
    (unlistRepair t s).pins = s.pins ∧ (unlistRepair t s).path = s.path ∧ (unlistRepair t s).fence = s.fence ∧
      (unlistRepair t s).tables = s.tables ∧ (unlistRepair t s).buffer = s.buffer ∧ (unlistRepair t s).link = s.link ∧
      (unlistRepair t s).remap = s.remap ∧ (unlistRepair t s).health = s.health ∧ (unlistRepair t s).watch = s.watch ∧
      (unlistRepair t s).mgmt = s.mgmt ∧ (unlistRepair t s).events = s.events ∧
      (unlistRepair t s).pending = s.pending := by
  simp [unlistRepair]

@[simp] theorem withdrawn_frame (t : MetaLine) (a : MetaAsker) (s : State) :
    (withdrawn t a s).pins = s.pins ∧ (withdrawn t a s).fence = s.fence ∧ (withdrawn t a s).tables = s.tables ∧
      (withdrawn t a s).watch = s.watch ∧ (withdrawn t a s).pending = s.pending := by
  unfold withdrawn
  (repeat' split) <;> simp

@[simp] theorem withdrawOp_frame (o : ArrayOp) (s : State) :
    (withdrawOp o s).pins = s.pins ∧ (withdrawOp o s).fence = s.fence ∧ (withdrawOp o s).tables = s.tables ∧
      (withdrawOp o s).watch = s.watch ∧ (withdrawOp o s).pending = s.pending := by
  unfold withdrawOp
  (repeat' split) <;> simp

@[simp] theorem setFault_frame (s : State) :
    (setFault s).pins = s.pins ∧ (setFault s).fence = s.fence ∧ (setFault s).tables = s.tables ∧
      (setFault s).watch = s.watch ∧ (setFault s).pending = s.pending := by
  unfold setFault
  (try dsimp only)
  (repeat' split) <;> simp

@[simp] theorem settingsDone_frame (s : State) :
    (settingsDone s).pins = s.pins ∧ (settingsDone s).path = s.path ∧ (settingsDone s).fence = s.fence ∧
      (settingsDone s).tables = s.tables ∧ (settingsDone s).buffer = s.buffer ∧ (settingsDone s).remap = s.remap ∧
      (settingsDone s).health = s.health ∧ (settingsDone s).watch = s.watch ∧ (settingsDone s).metaCtl = s.metaCtl ∧
      (settingsDone s).pending = s.pending := by
  unfold settingsDone
  (try dsimp only)
  (repeat' split) <;> simp

@[simp] theorem deliver_frame (ok : Bool) (a : MetaAsker) (s : State) :
    (deliver ok a s).pins = s.pins ∧ (deliver ok a s).fence = s.fence ∧ (deliver ok a s).tables = s.tables ∧
      (deliver ok a s).watch = s.watch ∧ (deliver ok a s).metaCtl = s.metaCtl ∧
      (deliver ok a s).pending = s.pending := by
  unfold deliver
  (repeat' split) <;> simp

@[simp] theorem metaProgramDone_frame (t : MetaLine) (askers : List MetaAsker) (ok : Bool) (s : State) :
    (metaProgramDone t askers ok s).pins = s.pins ∧ (metaProgramDone t askers ok s).fence = s.fence ∧
      (metaProgramDone t askers ok s).tables = s.tables ∧ (metaProgramDone t askers ok s).watch = s.watch ∧
      (metaProgramDone t askers ok s).pending = s.pending := by
  unfold metaProgramDone
  (try dsimp only)
  (repeat' split) <;> simp

@[simp] theorem issueOp_frame (o : ArrayOp) (s : State) :
    (issueOp o s).pins = s.pins ∧ (issueOp o s).fence = s.fence ∧ (issueOp o s).tables = s.tables ∧
      (issueOp o s).buffer = s.buffer ∧ (issueOp o s).remap = s.remap ∧ (issueOp o s).health = s.health ∧
      (issueOp o s).watch = s.watch ∧ (issueOp o s).metaCtl = s.metaCtl ∧ (issueOp o s).mgmt = s.mgmt ∧
      (issueOp o s).events = s.events ∧ (issueOp o s).pending = s.pending := by
  unfold issueOp
  (try dsimp only)
  (repeat' split) <;> simp

@[simp] theorem issueNext_frame (s : State) :
    (issueNext s).pins = s.pins ∧ (issueNext s).fence = s.fence ∧ (issueNext s).tables = s.tables ∧
      (issueNext s).buffer = s.buffer ∧ (issueNext s).remap = s.remap ∧ (issueNext s).health = s.health ∧
      (issueNext s).watch = s.watch ∧ (issueNext s).metaCtl = s.metaCtl ∧ (issueNext s).mgmt = s.mgmt ∧
      (issueNext s).events = s.events ∧ (issueNext s).pending = s.pending := by
  unfold issueNext
  (repeat' split) <;> simp

@[simp] theorem grantReturns_frame (s : State) :
    (grantReturns s).pins = s.pins ∧ (grantReturns s).path = s.path ∧ (grantReturns s).fence = s.fence ∧
      (grantReturns s).tables = s.tables ∧ (grantReturns s).buffer = s.buffer ∧ (grantReturns s).remap = s.remap ∧
      (grantReturns s).health = s.health ∧ (grantReturns s).watch = s.watch ∧ (grantReturns s).metaCtl = s.metaCtl ∧
      (grantReturns s).mgmt = s.mgmt ∧ (grantReturns s).pending = s.pending := by
  unfold grantReturns
  (try dsimp only)
  (repeat' split) <;> simp

@[simp] theorem grantFalls_frame (s : State) :
    (grantFalls s).pins = s.pins ∧ (grantFalls s).path = s.path ∧ (grantFalls s).fence = s.fence ∧
      (grantFalls s).tables = s.tables ∧ (grantFalls s).buffer = s.buffer ∧ (grantFalls s).remap = s.remap ∧
      (grantFalls s).health = s.health ∧ (grantFalls s).watch = s.watch ∧ (grantFalls s).metaCtl = s.metaCtl ∧
      (grantFalls s).mgmt = s.mgmt ∧ (grantFalls s).pending = s.pending := by
  unfold grantFalls
  (try dsimp only)
  (repeat' split) <;> simp

@[simp] theorem answerRead_frame (r : SystemRead) (x : Response) (s : State) :
    (answerRead r x s).pins = s.pins ∧ (answerRead r x s).fence = s.fence ∧ (answerRead r x s).tables = s.tables ∧
      (answerRead r x s).buffer = s.buffer ∧ (answerRead r x s).link = s.link ∧ (answerRead r x s).remap = s.remap ∧
      (answerRead r x s).health = s.health ∧ (answerRead r x s).watch = s.watch ∧
      (answerRead r x s).metaCtl = s.metaCtl ∧ (answerRead r x s).mgmt = s.mgmt ∧
      (answerRead r x s).events = s.events ∧ (answerRead r x s).pending = s.pending := by
  unfold answerRead
  (repeat' split) <;> simp

@[simp] theorem refuseRead_frame (r : SystemRead) (code : ResponseCode) (s : State) :
    (refuseRead r code s).pins = s.pins ∧ (refuseRead r code s).fence = s.fence ∧
      (refuseRead r code s).tables = s.tables ∧ (refuseRead r code s).buffer = s.buffer ∧
      (refuseRead r code s).link = s.link ∧ (refuseRead r code s).remap = s.remap ∧
      (refuseRead r code s).health = s.health ∧ (refuseRead r code s).watch = s.watch ∧
      (refuseRead r code s).metaCtl = s.metaCtl ∧ (refuseRead r code s).mgmt = s.mgmt ∧
      (refuseRead r code s).events = s.events ∧ (refuseRead r code s).pending = s.pending := by
  simp [refuseRead]

@[simp] theorem endRead_frame (r : SystemRead) (s : State) :
    (endRead r s).pins = s.pins ∧ (endRead r s).fence = s.fence ∧ (endRead r s).tables = s.tables ∧
      (endRead r s).buffer = s.buffer ∧ (endRead r s).remap = s.remap ∧ (endRead r s).health = s.health ∧
      (endRead r s).watch = s.watch ∧ (endRead r s).metaCtl = s.metaCtl ∧ (endRead r s).mgmt = s.mgmt ∧
      (endRead r s).events = s.events ∧ (endRead r s).pending = s.pending := by
  simp [endRead]

@[simp] theorem withdrawRead_frame (r : SystemRead) (s : State) :
    (withdrawRead r s).pins = s.pins ∧ (withdrawRead r s).fence = s.fence ∧ (withdrawRead r s).tables = s.tables ∧
      (withdrawRead r s).buffer = s.buffer ∧ (withdrawRead r s).remap = s.remap ∧
      (withdrawRead r s).health = s.health ∧ (withdrawRead r s).watch = s.watch ∧
      (withdrawRead r s).metaCtl = s.metaCtl ∧ (withdrawRead r s).mgmt = s.mgmt ∧
      (withdrawRead r s).events = s.events ∧ (withdrawRead r s).pending = s.pending := by
  simp [withdrawRead]

@[simp] theorem readGranted_frame (r : SystemRead) (s : State) :
    (readGranted r s).pins = s.pins ∧ (readGranted r s).fence = s.fence ∧ (readGranted r s).tables = s.tables ∧
      (readGranted r s).buffer = s.buffer ∧ (readGranted r s).remap = s.remap ∧ (readGranted r s).health = s.health ∧
      (readGranted r s).watch = s.watch ∧ (readGranted r s).metaCtl = s.metaCtl ∧ (readGranted r s).mgmt = s.mgmt ∧
      (readGranted r s).events = s.events ∧ (readGranted r s).pending = s.pending := by
  unfold readGranted
  (repeat' split) <;> simp

@[simp] theorem withdrawThrough_frame (t : ThroughWrite) (s : State) :
    (withdrawThrough t s).pins = s.pins ∧ (withdrawThrough t s).fence = s.fence ∧
      (withdrawThrough t s).tables = s.tables ∧ (withdrawThrough t s).buffer = s.buffer ∧
      (withdrawThrough t s).remap = s.remap ∧ (withdrawThrough t s).health = s.health ∧
      (withdrawThrough t s).watch = s.watch ∧ (withdrawThrough t s).metaCtl = s.metaCtl ∧
      (withdrawThrough t s).mgmt = s.mgmt ∧ (withdrawThrough t s).events = s.events ∧
      (withdrawThrough t s).pending = s.pending := by
  simp [withdrawThrough]

@[simp] theorem withdrawRequests_frame (w : Writer) (s : State) :
    (withdrawRequests w s).pins = s.pins ∧ (withdrawRequests w s).path = s.path ∧
      (withdrawRequests w s).fence = s.fence ∧ (withdrawRequests w s).tables = s.tables ∧
      (withdrawRequests w s).buffer = s.buffer ∧ (withdrawRequests w s).link = s.link ∧
      (withdrawRequests w s).health = s.health ∧ (withdrawRequests w s).watch = s.watch ∧
      (withdrawRequests w s).metaCtl = s.metaCtl ∧ (withdrawRequests w s).mgmt = s.mgmt ∧
      (withdrawRequests w s).events = s.events ∧ (withdrawRequests w s).pending = s.pending := by
  unfold withdrawRequests
  (try dsimp only)
  simp

@[simp] theorem orphanThrough_frame (t : ThroughWrite) (s : State) :
    (orphanThrough t s).pins = s.pins ∧ (orphanThrough t s).fence = s.fence ∧ (orphanThrough t s).tables = s.tables ∧
      (orphanThrough t s).buffer = s.buffer ∧ (orphanThrough t s).link = s.link ∧
      (orphanThrough t s).remap = s.remap ∧ (orphanThrough t s).health = s.health ∧
      (orphanThrough t s).watch = s.watch ∧ (orphanThrough t s).metaCtl = s.metaCtl ∧
      (orphanThrough t s).mgmt = s.mgmt ∧ (orphanThrough t s).events = s.events ∧
      (orphanThrough t s).pending = s.pending := by
  simp [orphanThrough]

@[simp] theorem answerWaiting_frame (code : ResponseCode) (s : State) :
    (answerWaiting code s).pins = s.pins ∧ (answerWaiting code s).fence = s.fence ∧
      (answerWaiting code s).tables = s.tables ∧ (answerWaiting code s).link = s.link ∧
      (answerWaiting code s).remap = s.remap ∧ (answerWaiting code s).health = s.health ∧
      (answerWaiting code s).watch = s.watch ∧ (answerWaiting code s).metaCtl = s.metaCtl ∧
      (answerWaiting code s).mgmt = s.mgmt ∧ (answerWaiting code s).events = s.events ∧
      (answerWaiting code s).pending = s.pending := by
  simp [answerWaiting]

@[simp] theorem expireThrough_frame (t : ThroughWrite) (s : State) :
    (expireThrough t s).pins = s.pins ∧ (expireThrough t s).fence = s.fence ∧ (expireThrough t s).tables = s.tables ∧
      (expireThrough t s).buffer = s.buffer ∧ (expireThrough t s).remap = s.remap ∧
      (expireThrough t s).health = s.health ∧ (expireThrough t s).watch = s.watch ∧
      (expireThrough t s).metaCtl = s.metaCtl ∧ (expireThrough t s).mgmt = s.mgmt ∧
      (expireThrough t s).events = s.events ∧ (expireThrough t s).pending = s.pending := by
  unfold expireThrough
  (repeat' split) <;> simp

@[simp] theorem expire_frame (s : State) :
    (expire s).pins = s.pins ∧ (expire s).fence = s.fence ∧ (expire s).tables = s.tables ∧
      (expire s).remap = s.remap ∧ (expire s).health = s.health ∧ (expire s).watch = s.watch ∧
      (expire s).metaCtl = s.metaCtl ∧ (expire s).mgmt = s.mgmt ∧ (expire s).pending = s.pending := by
  simp [expire]

@[simp] theorem takeTransaction_frame (p : Port) (tx : Transaction) (s : State) :
    (takeTransaction p tx s).pins = s.pins ∧ (takeTransaction p tx s).fence = s.fence ∧
      (takeTransaction p tx s).tables = s.tables ∧ (takeTransaction p tx s).buffer = s.buffer ∧
      (takeTransaction p tx s).link = s.link ∧ (takeTransaction p tx s).remap = s.remap ∧
      (takeTransaction p tx s).health = s.health ∧ (takeTransaction p tx s).watch = s.watch ∧
      (takeTransaction p tx s).metaCtl = s.metaCtl ∧ (takeTransaction p tx s).mgmt = s.mgmt ∧
      (takeTransaction p tx s).events = s.events ∧ (takeTransaction p tx s).pending = s.pending := by
  unfold takeTransaction
  (try dsimp only)
  (repeat' split) <;> simp

@[simp] theorem watchStep_frame (p : Port) (tx : Transaction) (s : State) :
    (watchStep p tx s).pins = s.pins ∧ (watchStep p tx s).path = s.path ∧ (watchStep p tx s).fence = s.fence ∧
      (watchStep p tx s).tables = s.tables ∧ (watchStep p tx s).buffer = s.buffer ∧ (watchStep p tx s).link = s.link ∧
      (watchStep p tx s).remap = s.remap ∧ (watchStep p tx s).health = s.health ∧
      (watchStep p tx s).metaCtl = s.metaCtl ∧ (watchStep p tx s).mgmt = s.mgmt ∧
      (watchStep p tx s).pending = s.pending := by
  unfold watchStep
  (try dsimp only)
  (repeat' split) <;> simp

@[simp] theorem setIndex_frame (i : Nat) (s : State) :
    (setIndex i s).pins = s.pins ∧ (setIndex i s).path = s.path ∧ (setIndex i s).fence = s.fence ∧
      (setIndex i s).tables = s.tables ∧ (setIndex i s).buffer = s.buffer ∧ (setIndex i s).link = s.link ∧
      (setIndex i s).remap = s.remap ∧ (setIndex i s).health = s.health ∧ (setIndex i s).metaCtl = s.metaCtl ∧
      (setIndex i s).mgmt = s.mgmt ∧ (setIndex i s).events = s.events ∧ (setIndex i s).pending = s.pending := by
  simp [setIndex]

@[simp] theorem sequenceStep_frame (p : Port) (tx : Transaction) (s : State) :
    (sequenceStep p tx s).pins = s.pins ∧ (sequenceStep p tx s).path = s.path ∧
      (sequenceStep p tx s).fence = s.fence ∧ (sequenceStep p tx s).tables = s.tables ∧
      (sequenceStep p tx s).buffer = s.buffer ∧ (sequenceStep p tx s).link = s.link ∧
      (sequenceStep p tx s).remap = s.remap ∧ (sequenceStep p tx s).health = s.health ∧
      (sequenceStep p tx s).metaCtl = s.metaCtl ∧ (sequenceStep p tx s).mgmt = s.mgmt ∧
      (sequenceStep p tx s).pending = s.pending := by
  unfold sequenceStep
  (repeat' split) <;> simp

@[simp] theorem refuse_frame (p : Port) (t : Taken) (code : ResponseCode) (s : State) :
    (refuse p t code s).pins = s.pins ∧ (refuse p t code s).fence = s.fence ∧ (refuse p t code s).tables = s.tables ∧
      (refuse p t code s).buffer = s.buffer ∧ (refuse p t code s).link = s.link ∧
      (refuse p t code s).remap = s.remap ∧ (refuse p t code s).health = s.health ∧
      (refuse p t code s).watch = s.watch ∧ (refuse p t code s).metaCtl = s.metaCtl ∧
      (refuse p t code s).mgmt = s.mgmt ∧ (refuse p t code s).events = s.events ∧
      (refuse p t code s).pending = s.pending := by
  simp [refuse]

@[simp] theorem intakeRead_frame (p : Port) (t : Taken) (s : State) :
    (intakeRead p t s).pins = s.pins ∧ (intakeRead p t s).fence = s.fence ∧ (intakeRead p t s).tables = s.tables ∧
      (intakeRead p t s).buffer = s.buffer ∧ (intakeRead p t s).remap = s.remap ∧
      (intakeRead p t s).health = s.health ∧ (intakeRead p t s).watch = s.watch ∧
      (intakeRead p t s).metaCtl = s.metaCtl ∧ (intakeRead p t s).mgmt = s.mgmt ∧
      (intakeRead p t s).events = s.events ∧ (intakeRead p t s).pending = s.pending := by
  unfold intakeRead
  (try dsimp only)
  (repeat' split) <;> simp

@[simp] theorem waitForEntry_frame (p : Port) (t : Taken) (mask : Mask) (data : LineData) (s : State) :
    (waitForEntry p t mask data s).pins = s.pins ∧ (waitForEntry p t mask data s).fence = s.fence ∧
      (waitForEntry p t mask data s).tables = s.tables ∧ (waitForEntry p t mask data s).link = s.link ∧
      (waitForEntry p t mask data s).remap = s.remap ∧ (waitForEntry p t mask data s).health = s.health ∧
      (waitForEntry p t mask data s).watch = s.watch ∧ (waitForEntry p t mask data s).metaCtl = s.metaCtl ∧
      (waitForEntry p t mask data s).mgmt = s.mgmt ∧ (waitForEntry p t mask data s).events = s.events ∧
      (waitForEntry p t mask data s).pending = s.pending := by
  simp [waitForEntry]

@[simp] theorem intakePosted_frame (p : Port) (t : Taken) (s : State) :
    (intakePosted p t s).pins = s.pins ∧ (intakePosted p t s).fence = s.fence ∧
      (intakePosted p t s).tables = s.tables ∧ (intakePosted p t s).remap = s.remap ∧
      (intakePosted p t s).health = s.health ∧ (intakePosted p t s).watch = s.watch ∧
      (intakePosted p t s).mgmt = s.mgmt ∧ (intakePosted p t s).pending = s.pending := by
  unfold intakePosted
  dsimp only
  split
  · next t' h =>
    split at h
    · have := placePosted_frame _ _ _ _ _ h
      simp_all
    · simp at h
  · (repeat' split) <;> simp

@[simp] theorem intakeThrough_frame (p : Port) (t : Taken) (s : State) :
    (intakeThrough p t s).pins = s.pins ∧ (intakeThrough p t s).fence = s.fence ∧
      (intakeThrough p t s).tables = s.tables ∧ (intakeThrough p t s).health = s.health ∧
      (intakeThrough p t s).watch = s.watch ∧ (intakeThrough p t s).mgmt = s.mgmt ∧
      (intakeThrough p t s).pending = s.pending := by
  unfold intakeThrough
  (try dsimp only)
  (repeat' split) <;> simp

@[simp] theorem intakeWrite_frame (p : Port) (t : Taken) (cls : Nat) (s : State) :
    (intakeWrite p t cls s).pins = s.pins ∧ (intakeWrite p t cls s).fence = s.fence ∧
      (intakeWrite p t cls s).tables = s.tables ∧ (intakeWrite p t cls s).health = s.health ∧
      (intakeWrite p t cls s).watch = s.watch ∧ (intakeWrite p t cls s).mgmt = s.mgmt ∧
      (intakeWrite p t cls s).pending = s.pending := by
  unfold intakeWrite
  (repeat' split) <;> simp

@[simp] theorem checkWatches_frame (p : Port) (t : Taken) (cls : Nat) (s : State) :
    (checkWatches p t cls s).pins = s.pins ∧ (checkWatches p t cls s).fence = s.fence ∧
      (checkWatches p t cls s).tables = s.tables ∧ (checkWatches p t cls s).health = s.health ∧
      (checkWatches p t cls s).mgmt = s.mgmt ∧ (checkWatches p t cls s).pending = s.pending := by
  unfold checkWatches
  (try dsimp only)
  (repeat' split) <;> simp

@[simp] theorem checkTransaction_frame (p : Port) (t : Taken) (s : State) :
    (checkTransaction p t s).pins = s.pins ∧ (checkTransaction p t s).fence = s.fence ∧
      (checkTransaction p t s).tables = s.tables ∧ (checkTransaction p t s).health = s.health ∧
      (checkTransaction p t s).mgmt = s.mgmt ∧ (checkTransaction p t s).pending = s.pending := by
  unfold checkTransaction
  (try dsimp only)
  (repeat' split) <;> simp

@[simp] theorem runIntake_frame (p : Port) (s : State) :
    (runIntake p s).pins = s.pins ∧ (runIntake p s).fence = s.fence ∧ (runIntake p s).tables = s.tables ∧
      (runIntake p s).health = s.health ∧ (runIntake p s).mgmt = s.mgmt ∧ (runIntake p s).pending = s.pending := by
  unfold runIntake
  (repeat' split) <;> simp

@[simp] theorem retryWaiting_frame (w : WaitingWrite) (s : State) :
    (retryWaiting w s).pins = s.pins ∧ (retryWaiting w s).fence = s.fence ∧ (retryWaiting w s).tables = s.tables ∧
      (retryWaiting w s).link = s.link ∧ (retryWaiting w s).remap = s.remap ∧ (retryWaiting w s).health = s.health ∧
      (retryWaiting w s).watch = s.watch ∧ (retryWaiting w s).metaCtl = s.metaCtl ∧ (retryWaiting w s).mgmt = s.mgmt ∧
      (retryWaiting w s).events = s.events ∧ (retryWaiting w s).pending = s.pending := by
  unfold retryWaiting
  split
  · simp
  · next t h => have := placePosted_frame _ _ _ _ _ h; simp_all

@[simp] theorem placeWaiting_frame (s : State) :
    (placeWaiting s).pins = s.pins ∧ (placeWaiting s).fence = s.fence ∧ (placeWaiting s).tables = s.tables ∧
      (placeWaiting s).link = s.link ∧ (placeWaiting s).remap = s.remap ∧ (placeWaiting s).health = s.health ∧
      (placeWaiting s).watch = s.watch ∧ (placeWaiting s).metaCtl = s.metaCtl ∧ (placeWaiting s).mgmt = s.mgmt ∧
      (placeWaiting s).events = s.events ∧ (placeWaiting s).pending = s.pending := by
  simp [placeWaiting]

@[simp] theorem requestThrough_frame (p : Port) (s : State) :
    (requestThrough p s).pins = s.pins ∧ (requestThrough p s).fence = s.fence ∧
      (requestThrough p s).tables = s.tables ∧ (requestThrough p s).health = s.health ∧
      (requestThrough p s).watch = s.watch ∧ (requestThrough p s).metaCtl = s.metaCtl ∧
      (requestThrough p s).mgmt = s.mgmt ∧ (requestThrough p s).events = s.events ∧
      (requestThrough p s).pending = s.pending := by
  unfold requestThrough
  (repeat' split) <;> simp

@[simp] theorem setSent_frame (p : Port) (rs : List Response) (s : State) :
    (setSent p rs s).pins = s.pins ∧ (setSent p rs s).fence = s.fence ∧ (setSent p rs s).tables = s.tables ∧
      (setSent p rs s).buffer = s.buffer ∧ (setSent p rs s).link = s.link ∧ (setSent p rs s).remap = s.remap ∧
      (setSent p rs s).health = s.health ∧ (setSent p rs s).watch = s.watch ∧ (setSent p rs s).metaCtl = s.metaCtl ∧
      (setSent p rs s).mgmt = s.mgmt ∧ (setSent p rs s).events = s.events ∧
      (setSent p rs s).pending = s.pending := by
  unfold setSent
  (try dsimp only)
  (repeat' split) <;> simp

@[simp] theorem sendResponses_frame (p : Port) (s : State) :
    (sendResponses p s).pins = s.pins ∧ (sendResponses p s).fence = s.fence ∧ (sendResponses p s).tables = s.tables ∧
      (sendResponses p s).buffer = s.buffer ∧ (sendResponses p s).link = s.link ∧
      (sendResponses p s).remap = s.remap ∧ (sendResponses p s).health = s.health ∧
      (sendResponses p s).watch = s.watch ∧ (sendResponses p s).metaCtl = s.metaCtl ∧
      (sendResponses p s).mgmt = s.mgmt ∧ (sendResponses p s).events = s.events ∧
      (sendResponses p s).pending = s.pending := by
  unfold sendResponses
  (repeat' split) <;> simp

@[simp] theorem srstRead_frame (r : SystemRead) (s : State) :
    (srstRead r s).pins = s.pins ∧ (srstRead r s).fence = s.fence ∧ (srstRead r s).tables = s.tables ∧
      (srstRead r s).buffer = s.buffer ∧ (srstRead r s).remap = s.remap ∧ (srstRead r s).health = s.health ∧
      (srstRead r s).watch = s.watch ∧ (srstRead r s).metaCtl = s.metaCtl ∧ (srstRead r s).mgmt = s.mgmt ∧
      (srstRead r s).events = s.events ∧ (srstRead r s).pending = s.pending := by
  unfold srstRead
  (try dsimp only)
  (repeat' split) <;> simp

@[simp] theorem srstThrough_frame (t : ThroughWrite) (s : State) :
    (srstThrough t s).pins = s.pins ∧ (srstThrough t s).fence = s.fence ∧ (srstThrough t s).tables = s.tables ∧
      (srstThrough t s).buffer = s.buffer ∧ (srstThrough t s).health = s.health ∧ (srstThrough t s).watch = s.watch ∧
      (srstThrough t s).metaCtl = s.metaCtl ∧ (srstThrough t s).mgmt = s.mgmt ∧ (srstThrough t s).events = s.events ∧
      (srstThrough t s).pending = s.pending := by
  unfold srstThrough
  (repeat' split) <;> simp

@[simp] theorem srstReturn_frame (s : State) :
    (srstReturn s).pins = s.pins ∧ (srstReturn s).path = s.path ∧ (srstReturn s).buffer = s.buffer ∧
      (srstReturn s).link = s.link ∧ (srstReturn s).remap = s.remap ∧ (srstReturn s).health = s.health ∧
      (srstReturn s).watch = s.watch ∧ (srstReturn s).metaCtl = s.metaCtl ∧ (srstReturn s).mgmt = s.mgmt ∧
      (srstReturn s).events = s.events ∧ (srstReturn s).pending = s.pending := by
  unfold srstReturn
  (try dsimp only)
  (repeat' split) <;> simp

@[simp] theorem srstWatches_frame (s : State) :
    (srstWatches s).pins = s.pins ∧ (srstWatches s).path = s.path ∧ (srstWatches s).fence = s.fence ∧
      (srstWatches s).tables = s.tables ∧ (srstWatches s).buffer = s.buffer ∧ (srstWatches s).link = s.link ∧
      (srstWatches s).remap = s.remap ∧ (srstWatches s).health = s.health ∧ (srstWatches s).metaCtl = s.metaCtl ∧
      (srstWatches s).mgmt = s.mgmt ∧ (srstWatches s).events = s.events ∧ (srstWatches s).pending = s.pending := by
  simp [srstWatches]

@[simp] theorem systemReset_frame (s : State) :
    (systemReset s).pins = s.pins ∧ (systemReset s).health = s.health ∧ (systemReset s).mgmt = s.mgmt ∧
      (systemReset s).pending = s.pending := by
  simp [systemReset]

@[simp] theorem openDrainWait_frame (s : State) :
    (openDrainWait s).pins = s.pins ∧ (openDrainWait s).fence = s.fence ∧ (openDrainWait s).tables = s.tables ∧
      (openDrainWait s).buffer = s.buffer ∧ (openDrainWait s).link = s.link ∧ (openDrainWait s).remap = s.remap ∧
      (openDrainWait s).health = s.health ∧ (openDrainWait s).watch = s.watch ∧
      (openDrainWait s).metaCtl = s.metaCtl ∧ (openDrainWait s).mgmt = s.mgmt ∧ (openDrainWait s).events = s.events ∧
      (openDrainWait s).pending = s.pending := by
  simp [openDrainWait]

@[simp] theorem closeDrainWait_frame (s : State) :
    (closeDrainWait s).pins = s.pins ∧ (closeDrainWait s).fence = s.fence ∧ (closeDrainWait s).tables = s.tables ∧
      (closeDrainWait s).buffer = s.buffer ∧ (closeDrainWait s).link = s.link ∧ (closeDrainWait s).remap = s.remap ∧
      (closeDrainWait s).health = s.health ∧ (closeDrainWait s).watch = s.watch ∧
      (closeDrainWait s).metaCtl = s.metaCtl ∧ (closeDrainWait s).mgmt = s.mgmt ∧
      (closeDrainWait s).events = s.events ∧ (closeDrainWait s).pending = s.pending := by
  unfold closeDrainWait
  (try dsimp only)
  (repeat' split) <;> simp

@[simp] theorem warnThrough_frame (t : ThroughWrite) (s : State) :
    (warnThrough t s).pins = s.pins ∧ (warnThrough t s).fence = s.fence ∧ (warnThrough t s).tables = s.tables ∧
      (warnThrough t s).buffer = s.buffer ∧ (warnThrough t s).remap = s.remap ∧ (warnThrough t s).health = s.health ∧
      (warnThrough t s).watch = s.watch ∧ (warnThrough t s).metaCtl = s.metaCtl ∧ (warnThrough t s).mgmt = s.mgmt ∧
      (warnThrough t s).events = s.events ∧ (warnThrough t s).pending = s.pending := by
  unfold warnThrough
  (repeat' split) <;> simp

@[simp] theorem powerWarning_frame (s : State) :
    (powerWarning s).pins = s.pins ∧ (powerWarning s).fence = s.fence ∧ (powerWarning s).tables = s.tables ∧
      (powerWarning s).remap = s.remap ∧ (powerWarning s).health = s.health ∧ (powerWarning s).watch = s.watch ∧
      (powerWarning s).mgmt = s.mgmt ∧ (powerWarning s).pending = s.pending := by
  simp [powerWarning]

@[simp] theorem setPatrol_frame (f : Patrol → Patrol) (s : State) :
    (setPatrol f s).pins = s.pins ∧ (setPatrol f s).path = s.path ∧ (setPatrol f s).fence = s.fence ∧
      (setPatrol f s).tables = s.tables ∧ (setPatrol f s).buffer = s.buffer ∧ (setPatrol f s).link = s.link ∧
      (setPatrol f s).remap = s.remap ∧ (setPatrol f s).watch = s.watch ∧ (setPatrol f s).metaCtl = s.metaCtl ∧
      (setPatrol f s).mgmt = s.mgmt ∧ (setPatrol f s).events = s.events ∧ (setPatrol f s).pending = s.pending := by
  simp [setPatrol]

@[simp] theorem endPass_frame (s : State) :
    (endPass s).pins = s.pins ∧ (endPass s).path = s.path ∧ (endPass s).fence = s.fence ∧
      (endPass s).tables = s.tables ∧ (endPass s).buffer = s.buffer ∧ (endPass s).link = s.link ∧
      (endPass s).remap = s.remap ∧ (endPass s).watch = s.watch ∧ (endPass s).metaCtl = s.metaCtl ∧
      (endPass s).mgmt = s.mgmt ∧ (endPass s).pending = s.pending := by
  unfold endPass
  (try dsimp only)
  simp

@[simp] theorem patrolStep_frame (s : State) :
    (patrolStep s).pins = s.pins ∧ (patrolStep s).path = s.path ∧ (patrolStep s).fence = s.fence ∧
      (patrolStep s).tables = s.tables ∧ (patrolStep s).buffer = s.buffer ∧ (patrolStep s).remap = s.remap ∧
      (patrolStep s).watch = s.watch ∧ (patrolStep s).metaCtl = s.metaCtl ∧ (patrolStep s).mgmt = s.mgmt ∧
      (patrolStep s).pending = s.pending := by
  unfold patrolStep
  (try dsimp only)
  (repeat' split) <;> simp

@[simp] theorem patrolExpiry_frame (s : State) :
    (patrolExpiry s).pins = s.pins ∧ (patrolExpiry s).path = s.path ∧ (patrolExpiry s).fence = s.fence ∧
      (patrolExpiry s).tables = s.tables ∧ (patrolExpiry s).buffer = s.buffer ∧ (patrolExpiry s).remap = s.remap ∧
      (patrolExpiry s).watch = s.watch ∧ (patrolExpiry s).metaCtl = s.metaCtl ∧ (patrolExpiry s).mgmt = s.mgmt ∧
      (patrolExpiry s).pending = s.pending := by
  unfold patrolExpiry
  (try dsimp only)
  (repeat' split) <;> simp

@[simp] theorem tick_frame (s : State) :
    (tick s).pins = s.pins ∧ (tick s).path = s.path ∧ (tick s).fence = s.fence ∧ (tick s).tables = s.tables ∧
      (tick s).buffer = s.buffer ∧ (tick s).remap = s.remap ∧ (tick s).watch = s.watch ∧ (tick s).mgmt = s.mgmt ∧
      (tick s).events = s.events ∧ (tick s).pending = s.pending := by
  unfold tick
  (try dsimp only)
  (repeat' split) <;> simp

@[simp] theorem placeLoad_frame (t : MetaLine) (s : State) :
    (placeLoad t s).pins = s.pins ∧ (placeLoad t s).path = s.path ∧ (placeLoad t s).fence = s.fence ∧
      (placeLoad t s).tables = s.tables ∧ (placeLoad t s).buffer = s.buffer ∧ (placeLoad t s).remap = s.remap ∧
      (placeLoad t s).health = s.health ∧ (placeLoad t s).watch = s.watch ∧ (placeLoad t s).metaCtl = s.metaCtl ∧
      (placeLoad t s).mgmt = s.mgmt ∧ (placeLoad t s).events = s.events ∧ (placeLoad t s).pending = s.pending := by
  simp [placeLoad]

@[simp] theorem placeFormat_frame (n : Nat) (s : State) :
    (placeFormat n s).pins = s.pins ∧ (placeFormat n s).path = s.path ∧ (placeFormat n s).fence = s.fence ∧
      (placeFormat n s).tables = s.tables ∧ (placeFormat n s).buffer = s.buffer ∧ (placeFormat n s).remap = s.remap ∧
      (placeFormat n s).health = s.health ∧ (placeFormat n s).watch = s.watch ∧
      (placeFormat n s).metaCtl = s.metaCtl ∧ (placeFormat n s).mgmt = s.mgmt ∧ (placeFormat n s).events = s.events ∧
      (placeFormat n s).pending = s.pending := by
  simp [placeFormat]

@[simp] theorem startLoading_frame (s : State) :
    (startLoading s).pins = s.pins ∧ (startLoading s).path = s.path ∧ (startLoading s).buffer = s.buffer ∧
      (startLoading s).health = s.health ∧ (startLoading s).watch = s.watch ∧ (startLoading s).mgmt = s.mgmt ∧
      (startLoading s).events = s.events ∧ (startLoading s).pending = s.pending := by
  simp [startLoading]

@[simp] theorem takeHeader_frame (h : HeaderImage) (s : State) :
    (takeHeader h s).pins = s.pins ∧ (takeHeader h s).path = s.path ∧ (takeHeader h s).tables = s.tables ∧
      (takeHeader h s).buffer = s.buffer ∧ (takeHeader h s).link = s.link ∧ (takeHeader h s).remap = s.remap ∧
      (takeHeader h s).health = s.health ∧ (takeHeader h s).watch = s.watch ∧ (takeHeader h s).metaCtl = s.metaCtl ∧
      (takeHeader h s).mgmt = s.mgmt ∧ (takeHeader h s).events = s.events ∧
      (takeHeader h s).pending = s.pending := by
  unfold takeHeader
  (try dsimp only)
  (repeat' split) <;> simp

@[simp] theorem headerDone_frame (ecc : Ecc) (h : HeaderImage) (s : State) :
    (headerDone ecc h s).pins = s.pins ∧ (headerDone ecc h s).path = s.path ∧ (headerDone ecc h s).tables = s.tables ∧
      (headerDone ecc h s).buffer = s.buffer ∧ (headerDone ecc h s).remap = s.remap ∧
      (headerDone ecc h s).health = s.health ∧ (headerDone ecc h s).watch = s.watch ∧
      (headerDone ecc h s).mgmt = s.mgmt ∧ (headerDone ecc h s).pending = s.pending := by
  unfold headerDone
  (try dsimp only)
  (repeat' split) <;> simp

@[simp] theorem addRepair_frame (t : MetaLine) (s : State) :
    (addRepair t s).pins = s.pins ∧ (addRepair t s).path = s.path ∧ (addRepair t s).fence = s.fence ∧
      (addRepair t s).tables = s.tables ∧ (addRepair t s).buffer = s.buffer ∧ (addRepair t s).link = s.link ∧
      (addRepair t s).remap = s.remap ∧ (addRepair t s).health = s.health ∧ (addRepair t s).watch = s.watch ∧
      (addRepair t s).mgmt = s.mgmt ∧ (addRepair t s).events = s.events ∧ (addRepair t s).pending = s.pending := by
  unfold addRepair
  (try dsimp only)
  (repeat' split) <;> simp

@[simp] theorem deadSlot_frame (slot : Nat) (s : State) :
    (deadSlot slot s).pins = s.pins ∧ (deadSlot slot s).path = s.path ∧ (deadSlot slot s).fence = s.fence ∧
      (deadSlot slot s).tables = s.tables ∧ (deadSlot slot s).buffer = s.buffer ∧ (deadSlot slot s).link = s.link ∧
      (deadSlot slot s).health = s.health ∧ (deadSlot slot s).watch = s.watch ∧
      (deadSlot slot s).metaCtl = s.metaCtl ∧ (deadSlot slot s).mgmt = s.mgmt ∧ (deadSlot slot s).events = s.events ∧
      (deadSlot slot s).pending = s.pending := by
  simp [deadSlot]

@[simp] theorem damageSlot_frame (slot : Nat) (s : State) :
    (damageSlot slot s).pins = s.pins ∧ (damageSlot slot s).path = s.path ∧ (damageSlot slot s).fence = s.fence ∧
      (damageSlot slot s).tables = s.tables ∧ (damageSlot slot s).buffer = s.buffer ∧
      (damageSlot slot s).link = s.link ∧ (damageSlot slot s).health = s.health ∧
      (damageSlot slot s).watch = s.watch ∧ (damageSlot slot s).mgmt = s.mgmt ∧
      (damageSlot slot s).events = s.events ∧ (damageSlot slot s).pending = s.pending := by
  simp [damageSlot]

@[simp] theorem bindSlot_frame (slot line : Nat) (data : DataState) (origin : Origin) (generation : BitVec 8) (s : State) :
    (bindSlot slot line data origin generation s).pins = s.pins ∧
      (bindSlot slot line data origin generation s).path = s.path ∧
      (bindSlot slot line data origin generation s).fence = s.fence ∧
      (bindSlot slot line data origin generation s).tables = s.tables ∧
      (bindSlot slot line data origin generation s).buffer = s.buffer ∧
      (bindSlot slot line data origin generation s).link = s.link ∧
      (bindSlot slot line data origin generation s).health = s.health ∧
      (bindSlot slot line data origin generation s).watch = s.watch ∧
      (bindSlot slot line data origin generation s).metaCtl = s.metaCtl ∧
      (bindSlot slot line data origin generation s).mgmt = s.mgmt ∧
      (bindSlot slot line data origin generation s).events = s.events ∧
      (bindSlot slot line data origin generation s).pending = s.pending := by
  simp [bindSlot]

@[simp] theorem takeInUse_frame (slot line : Nat) (data : DataState) (origin : Origin) (generation : BitVec 8) (s : State) :
    (takeInUse slot line data origin generation s).pins = s.pins ∧
      (takeInUse slot line data origin generation s).path = s.path ∧
      (takeInUse slot line data origin generation s).fence = s.fence ∧
      (takeInUse slot line data origin generation s).tables = s.tables ∧
      (takeInUse slot line data origin generation s).buffer = s.buffer ∧
      (takeInUse slot line data origin generation s).link = s.link ∧
      (takeInUse slot line data origin generation s).health = s.health ∧
      (takeInUse slot line data origin generation s).watch = s.watch ∧
      (takeInUse slot line data origin generation s).mgmt = s.mgmt ∧
      (takeInUse slot line data origin generation s).events = s.events ∧
      (takeInUse slot line data origin generation s).pending = s.pending := by
  unfold takeInUse
  (repeat' split) <;> simp

@[simp] theorem takeRecord_frame (slot : Nat) (r : RawRecord) (s : State) :
    (takeRecord slot r s).pins = s.pins ∧ (takeRecord slot r s).path = s.path ∧
      (takeRecord slot r s).fence = s.fence ∧ (takeRecord slot r s).tables = s.tables ∧
      (takeRecord slot r s).buffer = s.buffer ∧ (takeRecord slot r s).link = s.link ∧
      (takeRecord slot r s).health = s.health ∧ (takeRecord slot r s).watch = s.watch ∧
      (takeRecord slot r s).mgmt = s.mgmt ∧ (takeRecord slot r s).events = s.events ∧
      (takeRecord slot r s).pending = s.pending := by
  unfold takeRecord
  (repeat' split) <;> simp

@[simp] theorem takeNth_frame (k : Nat) (records : List RawRecord) (i : Nat) (s : State) :
    (takeNth k records i s).pins = s.pins ∧ (takeNth k records i s).path = s.path ∧
      (takeNth k records i s).fence = s.fence ∧ (takeNth k records i s).tables = s.tables ∧
      (takeNth k records i s).buffer = s.buffer ∧ (takeNth k records i s).link = s.link ∧
      (takeNth k records i s).health = s.health ∧ (takeNth k records i s).watch = s.watch ∧
      (takeNth k records i s).mgmt = s.mgmt ∧ (takeNth k records i s).events = s.events ∧
      (takeNth k records i s).pending = s.pending := by
  unfold takeNth
  (repeat' split) <;> simp

@[simp] theorem takeRecords_frame (k : Nat) (records : List RawRecord) (s : State) :
    (takeRecords k records s).pins = s.pins ∧ (takeRecords k records s).path = s.path ∧
      (takeRecords k records s).fence = s.fence ∧ (takeRecords k records s).tables = s.tables ∧
      (takeRecords k records s).buffer = s.buffer ∧ (takeRecords k records s).link = s.link ∧
      (takeRecords k records s).health = s.health ∧ (takeRecords k records s).watch = s.watch ∧
      (takeRecords k records s).mgmt = s.mgmt ∧ (takeRecords k records s).events = s.events ∧
      (takeRecords k records s).pending = s.pending := by
  simp [takeRecords]

@[simp] theorem damagedImage_frame (k : Nat) (s : State) :
    (damagedImage k s).pins = s.pins ∧ (damagedImage k s).path = s.path ∧ (damagedImage k s).fence = s.fence ∧
      (damagedImage k s).tables = s.tables ∧ (damagedImage k s).buffer = s.buffer ∧ (damagedImage k s).link = s.link ∧
      (damagedImage k s).health = s.health ∧ (damagedImage k s).watch = s.watch ∧ (damagedImage k s).mgmt = s.mgmt ∧
      (damagedImage k s).pending = s.pending := by
  simp [damagedImage]

@[simp] theorem imageLoaded_frame (s : State) :
    (imageLoaded s).pins = s.pins ∧ (imageLoaded s).path = s.path ∧ (imageLoaded s).fence = s.fence ∧
      (imageLoaded s).tables = s.tables ∧ (imageLoaded s).buffer = s.buffer ∧ (imageLoaded s).health = s.health ∧
      (imageLoaded s).watch = s.watch ∧ (imageLoaded s).metaCtl = s.metaCtl ∧ (imageLoaded s).mgmt = s.mgmt ∧
      (imageLoaded s).pending = s.pending := by
  unfold imageLoaded
  (try dsimp only)
  (repeat' split) <;> simp

@[simp] theorem imageReadDone_frame (ecc : Ecc) (records : List RawRecord) (s : State) :
    (imageReadDone ecc records s).pins = s.pins ∧ (imageReadDone ecc records s).path = s.path ∧
      (imageReadDone ecc records s).fence = s.fence ∧ (imageReadDone ecc records s).tables = s.tables ∧
      (imageReadDone ecc records s).buffer = s.buffer ∧ (imageReadDone ecc records s).health = s.health ∧
      (imageReadDone ecc records s).watch = s.watch ∧ (imageReadDone ecc records s).mgmt = s.mgmt ∧
      (imageReadDone ecc records s).pending = s.pending := by
  unfold imageReadDone
  (try dsimp only)
  (repeat' split) <;> simp

@[simp] theorem takeSettings_frame (j : Nat) (classes : List RawClass) (regions : List RegionEntry) (s : State) :
    (takeSettings j classes regions s).pins = s.pins ∧ (takeSettings j classes regions s).path = s.path ∧
      (takeSettings j classes regions s).fence = s.fence ∧ (takeSettings j classes regions s).buffer = s.buffer ∧
      (takeSettings j classes regions s).link = s.link ∧ (takeSettings j classes regions s).remap = s.remap ∧
      (takeSettings j classes regions s).health = s.health ∧ (takeSettings j classes regions s).watch = s.watch ∧
      (takeSettings j classes regions s).metaCtl = s.metaCtl ∧ (takeSettings j classes regions s).mgmt = s.mgmt ∧
      (takeSettings j classes regions s).events = s.events ∧
      (takeSettings j classes regions s).pending = s.pending := by
  unfold takeSettings
  (try dsimp only)
  (repeat' split) <;> simp

@[simp] theorem enterReadReady_frame (s : State) :
    (enterReadReady s).pins = s.pins ∧ (enterReadReady s).path = s.path ∧ (enterReadReady s).fence = s.fence ∧
      (enterReadReady s).tables = s.tables ∧ (enterReadReady s).buffer = s.buffer ∧ (enterReadReady s).link = s.link ∧
      (enterReadReady s).remap = s.remap ∧ (enterReadReady s).health = s.health ∧ (enterReadReady s).watch = s.watch ∧
      (enterReadReady s).mgmt = s.mgmt ∧ (enterReadReady s).pending = s.pending := by
  simp [enterReadReady]

@[simp] theorem settingsReadDone_frame (ecc : Ecc) (classes : List RawClass) (regions : List RegionEntry) (s : State) :
    (settingsReadDone ecc classes regions s).pins = s.pins ∧ (settingsReadDone ecc classes regions s).path = s.path ∧
      (settingsReadDone ecc classes regions s).fence = s.fence ∧
      (settingsReadDone ecc classes regions s).buffer = s.buffer ∧
      (settingsReadDone ecc classes regions s).remap = s.remap ∧
      (settingsReadDone ecc classes regions s).health = s.health ∧
      (settingsReadDone ecc classes regions s).watch = s.watch ∧
      (settingsReadDone ecc classes regions s).mgmt = s.mgmt ∧
      (settingsReadDone ecc classes regions s).pending = s.pending := by
  unfold settingsReadDone
  (try dsimp only)
  (repeat' split) <;> simp

@[simp] theorem formatEnds_frame (s : State) :
    (formatEnds s).pins = s.pins ∧ (formatEnds s).path = s.path ∧ (formatEnds s).buffer = s.buffer ∧
      (formatEnds s).health = s.health ∧ (formatEnds s).watch = s.watch ∧ (formatEnds s).pending = s.pending := by
  simp [formatEnds]

@[simp] theorem formatFails_frame (s : State) :
    (formatFails s).pins = s.pins ∧ (formatFails s).fence = s.fence ∧ (formatFails s).tables = s.tables ∧
      (formatFails s).watch = s.watch ∧ (formatFails s).pending = s.pending := by
  simp [formatFails]

@[simp] theorem formatDone_frame (ok : Bool) (s : State) :
    (formatDone ok s).pins = s.pins ∧ (formatDone ok s).watch = s.watch ∧ (formatDone ok s).pending = s.pending := by
  unfold formatDone
  (try dsimp only)
  (repeat' split) <;> simp

@[simp] theorem correctedNeed_frame (line : Nat) (reason : Reason) (ecc : Ecc) (s : State) :
    (correctedNeed line reason ecc s).pins = s.pins ∧ (correctedNeed line reason ecc s).path = s.path ∧
      (correctedNeed line reason ecc s).fence = s.fence ∧ (correctedNeed line reason ecc s).tables = s.tables ∧
      (correctedNeed line reason ecc s).buffer = s.buffer ∧ (correctedNeed line reason ecc s).link = s.link ∧
      (correctedNeed line reason ecc s).remap = s.remap ∧ (correctedNeed line reason ecc s).watch = s.watch ∧
      (correctedNeed line reason ecc s).metaCtl = s.metaCtl ∧ (correctedNeed line reason ecc s).mgmt = s.mgmt ∧
      (correctedNeed line reason ecc s).pending = s.pending := by
  unfold correctedNeed
  (repeat' split) <;> simp

@[simp] theorem readableReport_frame (line : Nat) (ecc : Ecc) (s : State) :
    (readableReport line ecc s).pins = s.pins ∧ (readableReport line ecc s).path = s.path ∧
      (readableReport line ecc s).fence = s.fence ∧ (readableReport line ecc s).tables = s.tables ∧
      (readableReport line ecc s).buffer = s.buffer ∧ (readableReport line ecc s).link = s.link ∧
      (readableReport line ecc s).remap = s.remap ∧ (readableReport line ecc s).watch = s.watch ∧
      (readableReport line ecc s).metaCtl = s.metaCtl ∧ (readableReport line ecc s).mgmt = s.mgmt ∧
      (readableReport line ecc s).pending = s.pending := by
  unfold readableReport
  (repeat' split) <;> simp

@[simp] theorem readDone_frame (ecc : Ecc) (data : LineData) (s : State) :
    (readDone ecc data s).pins = s.pins ∧ (readDone ecc data s).fence = s.fence ∧
      (readDone ecc data s).tables = s.tables ∧ (readDone ecc data s).buffer = s.buffer ∧
      (readDone ecc data s).watch = s.watch ∧ (readDone ecc data s).metaCtl = s.metaCtl ∧
      (readDone ecc data s).mgmt = s.mgmt ∧ (readDone ecc data s).pending = s.pending := by
  unfold readDone
  (try dsimp only)
  (repeat' split) <;> simp

@[simp] theorem merged_frame (w : Writer) (c : Course) (data : LineData) (s : State) :
    (merged w c data s).pins = s.pins ∧ (merged w c data s).fence = s.fence ∧ (merged w c data s).tables = s.tables ∧
      (merged w c data s).remap = s.remap ∧ (merged w c data s).health = s.health ∧
      (merged w c data s).watch = s.watch ∧ (merged w c data s).metaCtl = s.metaCtl ∧
      (merged w c data s).mgmt = s.mgmt ∧ (merged w c data s).events = s.events ∧
      (merged w c data s).pending = s.pending := by
  simp [merged]

@[simp] theorem mergeFailed_frame (w : Writer) (c : Course) (s : State) :
    (mergeFailed w c s).pins = s.pins ∧ (mergeFailed w c s).fence = s.fence ∧ (mergeFailed w c s).tables = s.tables ∧
      (mergeFailed w c s).buffer = s.buffer ∧ (mergeFailed w c s).link = s.link ∧
      (mergeFailed w c s).watch = s.watch ∧ (mergeFailed w c s).metaCtl = s.metaCtl ∧
      (mergeFailed w c s).mgmt = s.mgmt ∧ (mergeFailed w c s).events = s.events ∧
      (mergeFailed w c s).pending = s.pending := by
  simp [mergeFailed]

@[simp] theorem mergeDone_frame (ecc : Ecc) (data : LineData) (s : State) :
    (mergeDone ecc data s).pins = s.pins ∧ (mergeDone ecc data s).fence = s.fence ∧
      (mergeDone ecc data s).tables = s.tables ∧ (mergeDone ecc data s).watch = s.watch ∧
      (mergeDone ecc data s).metaCtl = s.metaCtl ∧ (mergeDone ecc data s).mgmt = s.mgmt ∧
      (mergeDone ecc data s).events = s.events ∧ (mergeDone ecc data s).pending = s.pending := by
  unfold mergeDone
  (repeat' split) <;> simp

@[simp] theorem askReassign_frame (w : Writer) (c : Course) (origin : Origin) (s : State) :
    (askReassign w c origin s).pins = s.pins ∧ (askReassign w c origin s).fence = s.fence ∧
      (askReassign w c origin s).tables = s.tables ∧ (askReassign w c origin s).buffer = s.buffer ∧
      (askReassign w c origin s).link = s.link ∧ (askReassign w c origin s).health = s.health ∧
      (askReassign w c origin s).watch = s.watch ∧ (askReassign w c origin s).metaCtl = s.metaCtl ∧
      (askReassign w c origin s).mgmt = s.mgmt ∧ (askReassign w c origin s).events = s.events ∧
      (askReassign w c origin s).pending = s.pending := by
  simp [askReassign]

@[simp] theorem programmed_frame (w : Writer) (c : Course) (ok : Bool) (s : State) :
    (programmed w c ok s).pins = s.pins ∧ (programmed w c ok s).fence = s.fence ∧
      (programmed w c ok s).tables = s.tables ∧ (programmed w c ok s).health = s.health ∧
      (programmed w c ok s).watch = s.watch ∧ (programmed w c ok s).metaCtl = s.metaCtl ∧
      (programmed w c ok s).pending = s.pending := by
  unfold programmed
  (repeat' split) <;> simp

@[simp] theorem programDone_frame (ok : Bool) (s : State) :
    (programDone ok s).pins = s.pins ∧ (programDone ok s).fence = s.fence ∧ (programDone ok s).tables = s.tables ∧
      (programDone ok s).watch = s.watch ∧ (programDone ok s).metaCtl = s.metaCtl ∧
      (programDone ok s).pending = s.pending := by
  unfold programDone
  (repeat' split) <;> simp

@[simp] theorem verifyDone_frame (ecc : Ecc) (s : State) :
    (verifyDone ecc s).pins = s.pins ∧ (verifyDone ecc s).fence = s.fence ∧ (verifyDone ecc s).tables = s.tables ∧
      (verifyDone ecc s).watch = s.watch ∧ (verifyDone ecc s).metaCtl = s.metaCtl ∧
      (verifyDone ecc s).pending = s.pending := by
  unfold verifyDone
  (repeat' split) <;> simp

@[simp] theorem spareProgramDone_frame (ok : Bool) (s : State) :
    (spareProgramDone ok s).pins = s.pins ∧ (spareProgramDone ok s).fence = s.fence ∧
      (spareProgramDone ok s).tables = s.tables ∧ (spareProgramDone ok s).watch = s.watch ∧
      (spareProgramDone ok s).metaCtl = s.metaCtl ∧ (spareProgramDone ok s).pending = s.pending := by
  unfold spareProgramDone
  (repeat' split) <;> simp

@[simp] theorem metaDone_frame (named : MetaLine → List MetaAsker → Bool) (ok : Bool) (s : State) :
    (metaDone named ok s).pins = s.pins ∧ (metaDone named ok s).fence = s.fence ∧
      (metaDone named ok s).tables = s.tables ∧ (metaDone named ok s).watch = s.watch ∧
      (metaDone named ok s).pending = s.pending := by
  unfold metaDone
  (repeat' split) <;> simp

@[simp] theorem setJob_frame (line : Nat) (f : Job → Job) (s : State) :
    (setJob line f s).pins = s.pins ∧ (setJob line f s).path = s.path ∧ (setJob line f s).fence = s.fence ∧
      (setJob line f s).tables = s.tables ∧ (setJob line f s).buffer = s.buffer ∧ (setJob line f s).link = s.link ∧
      (setJob line f s).remap = s.remap ∧ (setJob line f s).watch = s.watch ∧ (setJob line f s).metaCtl = s.metaCtl ∧
      (setJob line f s).mgmt = s.mgmt ∧ (setJob line f s).events = s.events ∧
      (setJob line f s).pending = s.pending := by
  unfold setJob
  (try dsimp only)
  simp

@[simp] theorem sourceDone_frame (ecc : Ecc) (data : LineData) (s : State) :
    (sourceDone ecc data s).pins = s.pins ∧ (sourceDone ecc data s).fence = s.fence ∧
      (sourceDone ecc data s).tables = s.tables ∧ (sourceDone ecc data s).buffer = s.buffer ∧
      (sourceDone ecc data s).watch = s.watch ∧ (sourceDone ecc data s).metaCtl = s.metaCtl ∧
      (sourceDone ecc data s).mgmt = s.mgmt ∧ (sourceDone ecc data s).pending = s.pending := by
  unfold sourceDone
  (try dsimp only)
  (repeat' split) <;> simp

@[simp] theorem patrolReport_frame (line : Nat) (ecc : Ecc) (s : State) :
    (patrolReport line ecc s).pins = s.pins ∧ (patrolReport line ecc s).path = s.path ∧
      (patrolReport line ecc s).fence = s.fence ∧ (patrolReport line ecc s).tables = s.tables ∧
      (patrolReport line ecc s).buffer = s.buffer ∧ (patrolReport line ecc s).link = s.link ∧
      (patrolReport line ecc s).watch = s.watch ∧ (patrolReport line ecc s).metaCtl = s.metaCtl ∧
      (patrolReport line ecc s).mgmt = s.mgmt ∧ (patrolReport line ecc s).pending = s.pending := by
  unfold patrolReport
  (repeat' split) <;> simp

@[simp] theorem patrolDone_frame (ecc : Ecc) (s : State) :
    (patrolDone ecc s).pins = s.pins ∧ (patrolDone ecc s).path = s.path ∧ (patrolDone ecc s).fence = s.fence ∧
      (patrolDone ecc s).tables = s.tables ∧ (patrolDone ecc s).buffer = s.buffer ∧
      (patrolDone ecc s).watch = s.watch ∧ (patrolDone ecc s).metaCtl = s.metaCtl ∧ (patrolDone ecc s).mgmt = s.mgmt ∧
      (patrolDone ecc s).pending = s.pending := by
  unfold patrolDone
  (repeat' split) <;> simp

@[simp] theorem markDraining_frame (line : Nat) (s : State) :
    (markDraining line s).pins = s.pins ∧ (markDraining line s).path = s.path ∧
      (markDraining line s).fence = s.fence ∧ (markDraining line s).tables = s.tables ∧
      (markDraining line s).link = s.link ∧ (markDraining line s).remap = s.remap ∧
      (markDraining line s).health = s.health ∧ (markDraining line s).watch = s.watch ∧
      (markDraining line s).metaCtl = s.metaCtl ∧ (markDraining line s).mgmt = s.mgmt ∧
      (markDraining line s).events = s.events ∧ (markDraining line s).pending = s.pending := by
  unfold markDraining
  (try dsimp only)
  simp

@[simp] theorem selectDrain_frame (s : State) :
    (selectDrain s).pins = s.pins ∧ (selectDrain s).fence = s.fence ∧ (selectDrain s).tables = s.tables ∧
      (selectDrain s).health = s.health ∧ (selectDrain s).watch = s.watch ∧ (selectDrain s).metaCtl = s.metaCtl ∧
      (selectDrain s).mgmt = s.mgmt ∧ (selectDrain s).events = s.events ∧ (selectDrain s).pending = s.pending := by
  unfold selectDrain
  (repeat' split) <;> simp

@[simp] theorem jobGranted_frame (line : Nat) (s : State) :
    (jobGranted line s).pins = s.pins ∧ (jobGranted line s).path = s.path ∧ (jobGranted line s).fence = s.fence ∧
      (jobGranted line s).tables = s.tables ∧ (jobGranted line s).buffer = s.buffer ∧
      (jobGranted line s).remap = s.remap ∧ (jobGranted line s).watch = s.watch ∧
      (jobGranted line s).metaCtl = s.metaCtl ∧ (jobGranted line s).mgmt = s.mgmt ∧
      (jobGranted line s).events = s.events ∧ (jobGranted line s).pending = s.pending := by
  unfold jobGranted
  (try dsimp only)
  (repeat' split) <;> simp

@[simp] theorem startJob_frame (s : State) :
    (startJob s).pins = s.pins ∧ (startJob s).path = s.path ∧ (startJob s).fence = s.fence ∧
      (startJob s).tables = s.tables ∧ (startJob s).buffer = s.buffer ∧ (startJob s).remap = s.remap ∧
      (startJob s).watch = s.watch ∧ (startJob s).metaCtl = s.metaCtl ∧ (startJob s).mgmt = s.mgmt ∧
      (startJob s).events = s.events ∧ (startJob s).pending = s.pending := by
  unfold startJob
  (try dsimp only)
  (repeat' split) <;> simp

@[simp] theorem noDataGranted_frame (s : State) :
    (noDataGranted s).pins = s.pins ∧ (noDataGranted s).fence = s.fence ∧ (noDataGranted s).tables = s.tables ∧
      (noDataGranted s).buffer = s.buffer ∧ (noDataGranted s).link = s.link ∧ (noDataGranted s).health = s.health ∧
      (noDataGranted s).watch = s.watch ∧ (noDataGranted s).metaCtl = s.metaCtl ∧ (noDataGranted s).mgmt = s.mgmt ∧
      (noDataGranted s).events = s.events ∧ (noDataGranted s).pending = s.pending := by
  unfold noDataGranted
  (try dsimp only)
  (repeat' split) <;> simp

@[simp] theorem askNoData_frame (s : State) :
    (askNoData s).pins = s.pins ∧ (askNoData s).fence = s.fence ∧ (askNoData s).tables = s.tables ∧
      (askNoData s).buffer = s.buffer ∧ (askNoData s).health = s.health ∧ (askNoData s).watch = s.watch ∧
      (askNoData s).metaCtl = s.metaCtl ∧ (askNoData s).mgmt = s.mgmt ∧ (askNoData s).events = s.events ∧
      (askNoData s).pending = s.pending := by
  unfold askNoData
  (try dsimp only)
  (repeat' split) <;> simp

@[simp] theorem granteeStep_frame (o : Claimant) (s : State) :
    (granteeStep o s).pins = s.pins ∧ (granteeStep o s).fence = s.fence ∧ (granteeStep o s).tables = s.tables ∧
      (granteeStep o s).watch = s.watch ∧ (granteeStep o s).metaCtl = s.metaCtl ∧ (granteeStep o s).mgmt = s.mgmt ∧
      (granteeStep o s).events = s.events ∧ (granteeStep o s).pending = s.pending := by
  unfold granteeStep
  (repeat' split) <;> simp

theorem grantFront_frame (line : Nat) (s : State) {p : Claimant × State} (h : grantFront line s = some p) :
    p.2.pins = s.pins ∧ p.2.path = s.path ∧ p.2.fence = s.fence ∧ p.2.tables = s.tables ∧ p.2.buffer = s.buffer ∧
      p.2.remap = s.remap ∧ p.2.health = s.health ∧ p.2.watch = s.watch ∧ p.2.metaCtl = s.metaCtl ∧
      p.2.mgmt = s.mgmt ∧ p.2.events = s.events ∧ p.2.pending = s.pending := by
  unfold grantFront at h
  dsimp only at h
  (repeat' split at h) <;> simp at h <;> subst h <;> simp

@[simp] theorem grantWaiting_frame (line fuel : Nat) (s : State) :
    (grantWaiting line fuel s).pins = s.pins ∧ (grantWaiting line fuel s).fence = s.fence ∧
      (grantWaiting line fuel s).tables = s.tables ∧ (grantWaiting line fuel s).watch = s.watch ∧
      (grantWaiting line fuel s).metaCtl = s.metaCtl ∧ (grantWaiting line fuel s).mgmt = s.mgmt ∧
      (grantWaiting line fuel s).events = s.events ∧ (grantWaiting line fuel s).pending = s.pending := by
  induction fuel generalizing s with
  | zero => simp [grantWaiting]
  | succ n ih =>
    unfold grantWaiting
    split
    · simp
    · next o t h =>
      have := grantFront_frame line s h
      simp at this
      simp [ih, this]

@[simp] theorem settleClaims_frame (line : Nat) (s : State) :
    (settleClaims line s).pins = s.pins ∧ (settleClaims line s).fence = s.fence ∧
      (settleClaims line s).tables = s.tables ∧ (settleClaims line s).watch = s.watch ∧
      (settleClaims line s).metaCtl = s.metaCtl ∧ (settleClaims line s).mgmt = s.mgmt ∧
      (settleClaims line s).events = s.events ∧ (settleClaims line s).pending = s.pending := by
  simp [settleClaims]

@[simp] theorem serveReassign_frame (s : State) :
    (serveReassign s).pins = s.pins ∧ (serveReassign s).fence = s.fence ∧ (serveReassign s).tables = s.tables ∧
      (serveReassign s).watch = s.watch ∧ (serveReassign s).metaCtl = s.metaCtl ∧
      (serveReassign s).pending = s.pending := by
  unfold serveReassign
  (repeat' split) <;> simp

@[simp] theorem serveMergeFail_frame (s : State) :
    (serveMergeFail s).pins = s.pins ∧ (serveMergeFail s).fence = s.fence ∧ (serveMergeFail s).tables = s.tables ∧
      (serveMergeFail s).watch = s.watch ∧ (serveMergeFail s).metaCtl = s.metaCtl ∧
      (serveMergeFail s).pending = s.pending := by
  unfold serveMergeFail
  (repeat' split) <;> simp

@[simp] theorem serveRecording_frame (s : State) :
    (serveRecording s).pins = s.pins ∧ (serveRecording s).fence = s.fence ∧ (serveRecording s).tables = s.tables ∧
      (serveRecording s).watch = s.watch ∧ (serveRecording s).metaCtl = s.metaCtl ∧
      (serveRecording s).pending = s.pending := by
  unfold serveRecording
  (repeat' split) <;> simp

@[simp] theorem takeReserve_frame (n : Nat) (s : State) :
    (takeReserve n s).pins = s.pins ∧ (takeReserve n s).path = s.path ∧ (takeReserve n s).fence = s.fence ∧
      (takeReserve n s).tables = s.tables ∧ (takeReserve n s).link = s.link ∧ (takeReserve n s).remap = s.remap ∧
      (takeReserve n s).health = s.health ∧ (takeReserve n s).watch = s.watch ∧
      (takeReserve n s).metaCtl = s.metaCtl ∧ (takeReserve n s).pending = s.pending := by
  simp [takeReserve]

@[simp] theorem closeReserveWait_frame (s : State) :
    (closeReserveWait s).pins = s.pins ∧ (closeReserveWait s).path = s.path ∧ (closeReserveWait s).fence = s.fence ∧
      (closeReserveWait s).tables = s.tables ∧ (closeReserveWait s).link = s.link ∧
      (closeReserveWait s).remap = s.remap ∧ (closeReserveWait s).health = s.health ∧
      (closeReserveWait s).watch = s.watch ∧ (closeReserveWait s).metaCtl = s.metaCtl ∧
      (closeReserveWait s).pending = s.pending := by
  unfold closeReserveWait
  (repeat' split) <;> simp

@[simp] theorem endDrainAll_frame (r : ResultCode) (taken discarded : Nat) (s : State) :
    (endDrainAll r taken discarded s).pins = s.pins ∧ (endDrainAll r taken discarded s).path = s.path ∧
      (endDrainAll r taken discarded s).fence = s.fence ∧ (endDrainAll r taken discarded s).tables = s.tables ∧
      (endDrainAll r taken discarded s).buffer = s.buffer ∧ (endDrainAll r taken discarded s).link = s.link ∧
      (endDrainAll r taken discarded s).remap = s.remap ∧ (endDrainAll r taken discarded s).health = s.health ∧
      (endDrainAll r taken discarded s).watch = s.watch ∧ (endDrainAll r taken discarded s).metaCtl = s.metaCtl ∧
      (endDrainAll r taken discarded s).pending = s.pending := by
  simp [endDrainAll]

@[simp] theorem closeDrainAll_frame (s : State) :
    (closeDrainAll s).pins = s.pins ∧ (closeDrainAll s).path = s.path ∧ (closeDrainAll s).fence = s.fence ∧
      (closeDrainAll s).tables = s.tables ∧ (closeDrainAll s).buffer = s.buffer ∧ (closeDrainAll s).link = s.link ∧
      (closeDrainAll s).remap = s.remap ∧ (closeDrainAll s).health = s.health ∧ (closeDrainAll s).watch = s.watch ∧
      (closeDrainAll s).metaCtl = s.metaCtl ∧ (closeDrainAll s).pending = s.pending := by
  unfold closeDrainAll
  (repeat' split) <;> simp

@[simp] theorem setBusy_frame (b : InProgress) (s : State) :
    (setBusy b s).pins = s.pins ∧ (setBusy b s).path = s.path ∧ (setBusy b s).fence = s.fence ∧
      (setBusy b s).tables = s.tables ∧ (setBusy b s).buffer = s.buffer ∧ (setBusy b s).link = s.link ∧
      (setBusy b s).remap = s.remap ∧ (setBusy b s).health = s.health ∧ (setBusy b s).watch = s.watch ∧
      (setBusy b s).metaCtl = s.metaCtl ∧ (setBusy b s).events = s.events ∧ (setBusy b s).pending = s.pending := by
  simp [setBusy]

@[simp] theorem storeHeader_frame (s : State) :
    (storeHeader s).pins = s.pins ∧ (storeHeader s).path = s.path ∧ (storeHeader s).fence = s.fence ∧
      (storeHeader s).tables = s.tables ∧ (storeHeader s).buffer = s.buffer ∧ (storeHeader s).remap = s.remap ∧
      (storeHeader s).health = s.health ∧ (storeHeader s).watch = s.watch ∧
      (storeHeader s).pending = s.pending := by
  simp [storeHeader]

@[simp] theorem setFence_frame (s : State) :
    (setFence s).pins = s.pins ∧ (setFence s).path = s.path ∧ (setFence s).tables = s.tables ∧
      (setFence s).buffer = s.buffer ∧ (setFence s).remap = s.remap ∧ (setFence s).health = s.health ∧
      (setFence s).watch = s.watch ∧ (setFence s).pending = s.pending := by
  unfold setFence
  (try dsimp only)
  (repeat' split) <;> simp

@[simp] theorem storeLockAtStart_frame (value : Bool) (s : State) :
    (storeLockAtStart value s).pins = s.pins ∧ (storeLockAtStart value s).path = s.path ∧
      (storeLockAtStart value s).tables = s.tables ∧ (storeLockAtStart value s).buffer = s.buffer ∧
      (storeLockAtStart value s).remap = s.remap ∧ (storeLockAtStart value s).health = s.health ∧
      (storeLockAtStart value s).watch = s.watch ∧ (storeLockAtStart value s).pending = s.pending := by
  unfold storeLockAtStart
  (try dsimp only)
  (repeat' split) <;> simp

@[simp] theorem setLock_frame (l : LockState) (s : State) :
    (setLock l s).pins = s.pins ∧ (setLock l s).path = s.path ∧ (setLock l s).tables = s.tables ∧
      (setLock l s).buffer = s.buffer ∧ (setLock l s).link = s.link ∧ (setLock l s).remap = s.remap ∧
      (setLock l s).health = s.health ∧ (setLock l s).watch = s.watch ∧ (setLock l s).metaCtl = s.metaCtl ∧
      (setLock l s).mgmt = s.mgmt ∧ (setLock l s).events = s.events ∧ (setLock l s).pending = s.pending := by
  simp [setLock]

@[simp] theorem fenceLock_frame (s : State) :
    (fenceLock s).pins = s.pins ∧ (fenceLock s).path = s.path ∧ (fenceLock s).tables = s.tables ∧
      (fenceLock s).buffer = s.buffer ∧ (fenceLock s).remap = s.remap ∧ (fenceLock s).health = s.health ∧
      (fenceLock s).watch = s.watch ∧ (fenceLock s).pending = s.pending := by
  unfold fenceLock
  (repeat' split) <;> simp

@[simp] theorem countRefusal_frame (s : State) :
    (countRefusal s).pins = s.pins ∧ (countRefusal s).path = s.path ∧ (countRefusal s).tables = s.tables ∧
      (countRefusal s).buffer = s.buffer ∧ (countRefusal s).link = s.link ∧ (countRefusal s).remap = s.remap ∧
      (countRefusal s).health = s.health ∧ (countRefusal s).watch = s.watch ∧ (countRefusal s).metaCtl = s.metaCtl ∧
      (countRefusal s).pending = s.pending := by
  unfold countRefusal
  (try dsimp only)
  (repeat' split) <;> simp

@[simp] theorem fenceUnlock_frame (s : State) :
    (fenceUnlock s).pins = s.pins ∧ (fenceUnlock s).path = s.path ∧ (fenceUnlock s).tables = s.tables ∧
      (fenceUnlock s).buffer = s.buffer ∧ (fenceUnlock s).remap = s.remap ∧ (fenceUnlock s).health = s.health ∧
      (fenceUnlock s).watch = s.watch ∧ (fenceUnlock s).pending = s.pending := by
  unfold fenceUnlock
  (try dsimp only)
  (repeat' split) <;> simp

@[simp] theorem fenceFreeze_frame (s : State) :
    (fenceFreeze s).pins = s.pins ∧ (fenceFreeze s).path = s.path ∧ (fenceFreeze s).tables = s.tables ∧
      (fenceFreeze s).buffer = s.buffer ∧ (fenceFreeze s).link = s.link ∧ (fenceFreeze s).remap = s.remap ∧
      (fenceFreeze s).health = s.health ∧ (fenceFreeze s).watch = s.watch ∧ (fenceFreeze s).metaCtl = s.metaCtl ∧
      (fenceFreeze s).pending = s.pending := by
  unfold fenceFreeze
  (repeat' split) <;> simp

@[simp] theorem loadRegion_frame (s : State) :
    (loadRegion s).pins = s.pins ∧ (loadRegion s).path = s.path ∧ (loadRegion s).fence = s.fence ∧
      (loadRegion s).buffer = s.buffer ∧ (loadRegion s).link = s.link ∧ (loadRegion s).remap = s.remap ∧
      (loadRegion s).health = s.health ∧ (loadRegion s).watch = s.watch ∧ (loadRegion s).metaCtl = s.metaCtl ∧
      (loadRegion s).pending = s.pending := by
  unfold loadRegion
  (try dsimp only)
  (repeat' split) <;> simp

@[simp] theorem loadClass_frame (s : State) :
    (loadClass s).pins = s.pins ∧ (loadClass s).path = s.path ∧ (loadClass s).fence = s.fence ∧
      (loadClass s).buffer = s.buffer ∧ (loadClass s).link = s.link ∧ (loadClass s).remap = s.remap ∧
      (loadClass s).health = s.health ∧ (loadClass s).watch = s.watch ∧ (loadClass s).metaCtl = s.metaCtl ∧
      (loadClass s).pending = s.pending := by
  unfold loadClass
  (try dsimp only)
  (repeat' split) <;> simp

@[simp] theorem saveSettings_frame (s : State) :
    (saveSettings s).pins = s.pins ∧ (saveSettings s).path = s.path ∧ (saveSettings s).buffer = s.buffer ∧
      (saveSettings s).remap = s.remap ∧ (saveSettings s).health = s.health ∧ (saveSettings s).watch = s.watch ∧
      (saveSettings s).pending = s.pending := by
  unfold saveSettings
  (try dsimp only)
  (repeat' split) <;> simp

@[simp] theorem loadRange_frame (s : State) :
    (loadRange s).pins = s.pins ∧ (loadRange s).path = s.path ∧ (loadRange s).fence = s.fence ∧
      (loadRange s).tables = s.tables ∧ (loadRange s).buffer = s.buffer ∧ (loadRange s).link = s.link ∧
      (loadRange s).remap = s.remap ∧ (loadRange s).health = s.health ∧ (loadRange s).metaCtl = s.metaCtl ∧
      (loadRange s).pending = s.pending := by
  unfold loadRange
  (try dsimp only)
  (repeat' split) <;> simp

@[simp] theorem loadTarget_frame (s : State) :
    (loadTarget s).pins = s.pins ∧ (loadTarget s).path = s.path ∧ (loadTarget s).fence = s.fence ∧
      (loadTarget s).tables = s.tables ∧ (loadTarget s).buffer = s.buffer ∧ (loadTarget s).link = s.link ∧
      (loadTarget s).remap = s.remap ∧ (loadTarget s).health = s.health ∧ (loadTarget s).metaCtl = s.metaCtl ∧
      (loadTarget s).pending = s.pending := by
  unfold loadTarget
  (try dsimp only)
  (repeat' split) <;> simp

@[simp] theorem sequenceSet_frame (s : State) :
    (sequenceSet s).pins = s.pins ∧ (sequenceSet s).path = s.path ∧ (sequenceSet s).fence = s.fence ∧
      (sequenceSet s).tables = s.tables ∧ (sequenceSet s).buffer = s.buffer ∧ (sequenceSet s).link = s.link ∧
      (sequenceSet s).remap = s.remap ∧ (sequenceSet s).health = s.health ∧ (sequenceSet s).metaCtl = s.metaCtl ∧
      (sequenceSet s).pending = s.pending := by
  unfold sequenceSet
  (try dsimp only)
  (repeat' split) <;> simp

@[simp] theorem sequenceArm_frame (s : State) :
    (sequenceArm s).pins = s.pins ∧ (sequenceArm s).path = s.path ∧ (sequenceArm s).fence = s.fence ∧
      (sequenceArm s).tables = s.tables ∧ (sequenceArm s).buffer = s.buffer ∧ (sequenceArm s).link = s.link ∧
      (sequenceArm s).remap = s.remap ∧ (sequenceArm s).health = s.health ∧ (sequenceArm s).metaCtl = s.metaCtl ∧
      (sequenceArm s).pending = s.pending := by
  simp [sequenceArm]

@[simp] theorem sequenceDisarm_frame (s : State) :
    (sequenceDisarm s).pins = s.pins ∧ (sequenceDisarm s).path = s.path ∧ (sequenceDisarm s).fence = s.fence ∧
      (sequenceDisarm s).tables = s.tables ∧ (sequenceDisarm s).buffer = s.buffer ∧ (sequenceDisarm s).link = s.link ∧
      (sequenceDisarm s).remap = s.remap ∧ (sequenceDisarm s).health = s.health ∧
      (sequenceDisarm s).metaCtl = s.metaCtl ∧ (sequenceDisarm s).pending = s.pending := by
  simp [sequenceDisarm]

@[simp] theorem drainAll_frame (s : State) :
    (drainAll s).pins = s.pins ∧ (drainAll s).path = s.path ∧ (drainAll s).fence = s.fence ∧
      (drainAll s).tables = s.tables ∧ (drainAll s).link = s.link ∧ (drainAll s).remap = s.remap ∧
      (drainAll s).health = s.health ∧ (drainAll s).watch = s.watch ∧ (drainAll s).metaCtl = s.metaCtl ∧
      (drainAll s).pending = s.pending := by
  unfold drainAll
  (try dsimp only)
  (repeat' split) <;> simp

@[simp] theorem setReserve_frame (s : State) :
    (setReserve s).pins = s.pins ∧ (setReserve s).path = s.path ∧ (setReserve s).fence = s.fence ∧
      (setReserve s).tables = s.tables ∧ (setReserve s).link = s.link ∧ (setReserve s).remap = s.remap ∧
      (setReserve s).health = s.health ∧ (setReserve s).watch = s.watch ∧ (setReserve s).metaCtl = s.metaCtl ∧
      (setReserve s).pending = s.pending := by
  unfold setReserve
  (try dsimp only)
  (repeat' split) <;> simp

@[simp] theorem retireCandidate_frame (line : Nat) (s : State) :
    (retireCandidate line s).pins = s.pins ∧ (retireCandidate line s).path = s.path ∧
      (retireCandidate line s).fence = s.fence ∧ (retireCandidate line s).tables = s.tables ∧
      (retireCandidate line s).buffer = s.buffer ∧ (retireCandidate line s).link = s.link ∧
      (retireCandidate line s).watch = s.watch ∧ (retireCandidate line s).metaCtl = s.metaCtl ∧
      (retireCandidate line s).pending = s.pending := by
  unfold retireCandidate
  (repeat' split) <;> simp

@[simp] theorem retireQueued_frame (line : Nat) (s : State) :
    (retireQueued line s).pins = s.pins ∧ (retireQueued line s).path = s.path ∧
      (retireQueued line s).fence = s.fence ∧ (retireQueued line s).tables = s.tables ∧
      (retireQueued line s).buffer = s.buffer ∧ (retireQueued line s).link = s.link ∧
      (retireQueued line s).remap = s.remap ∧ (retireQueued line s).watch = s.watch ∧
      (retireQueued line s).metaCtl = s.metaCtl ∧ (retireQueued line s).mgmt = s.mgmt ∧
      (retireQueued line s).events = s.events ∧ (retireQueued line s).pending = s.pending := by
  unfold retireQueued
  (try dsimp only)
  simp

@[simp] theorem retireLine_frame (line : Nat) (s : State) :
    (retireLine line s).pins = s.pins ∧ (retireLine line s).path = s.path ∧ (retireLine line s).fence = s.fence ∧
      (retireLine line s).tables = s.tables ∧ (retireLine line s).buffer = s.buffer ∧
      (retireLine line s).link = s.link ∧ (retireLine line s).watch = s.watch ∧
      (retireLine line s).metaCtl = s.metaCtl ∧ (retireLine line s).pending = s.pending := by
  unfold retireLine
  (try dsimp only)
  (repeat' split) <;> simp

@[simp] theorem retireJudged_frame (s : State) :
    (retireJudged s).pins = s.pins ∧ (retireJudged s).path = s.path ∧ (retireJudged s).fence = s.fence ∧
      (retireJudged s).tables = s.tables ∧ (retireJudged s).buffer = s.buffer ∧ (retireJudged s).link = s.link ∧
      (retireJudged s).watch = s.watch ∧ (retireJudged s).metaCtl = s.metaCtl ∧
      (retireJudged s).pending = s.pending := by
  unfold retireJudged
  (repeat' split) <;> simp

@[simp] theorem readRemap_frame (s : State) :
    (readRemap s).pins = s.pins ∧ (readRemap s).path = s.path ∧ (readRemap s).fence = s.fence ∧
      (readRemap s).tables = s.tables ∧ (readRemap s).buffer = s.buffer ∧ (readRemap s).link = s.link ∧
      (readRemap s).remap = s.remap ∧ (readRemap s).health = s.health ∧ (readRemap s).watch = s.watch ∧
      (readRemap s).metaCtl = s.metaCtl ∧ (readRemap s).pending = s.pending := by
  unfold readRemap
  (try dsimp only)
  (repeat' split) <;> simp

@[simp] theorem readSlot_frame (s : State) :
    (readSlot s).pins = s.pins ∧ (readSlot s).path = s.path ∧ (readSlot s).fence = s.fence ∧
      (readSlot s).tables = s.tables ∧ (readSlot s).buffer = s.buffer ∧ (readSlot s).link = s.link ∧
      (readSlot s).remap = s.remap ∧ (readSlot s).health = s.health ∧ (readSlot s).watch = s.watch ∧
      (readSlot s).metaCtl = s.metaCtl ∧ (readSlot s).pending = s.pending := by
  unfold readSlot
  (repeat' split) <;> simp

@[simp] theorem readCandidate_frame (s : State) :
    (readCandidate s).pins = s.pins ∧ (readCandidate s).path = s.path ∧ (readCandidate s).fence = s.fence ∧
      (readCandidate s).tables = s.tables ∧ (readCandidate s).buffer = s.buffer ∧ (readCandidate s).link = s.link ∧
      (readCandidate s).remap = s.remap ∧ (readCandidate s).health = s.health ∧ (readCandidate s).watch = s.watch ∧
      (readCandidate s).metaCtl = s.metaCtl ∧ (readCandidate s).pending = s.pending := by
  unfold readCandidate
  (try dsimp only)
  (repeat' split) <;> simp

@[simp] theorem patrolStart_frame (s : State) :
    (patrolStart s).pins = s.pins ∧ (patrolStart s).path = s.path ∧ (patrolStart s).fence = s.fence ∧
      (patrolStart s).tables = s.tables ∧ (patrolStart s).buffer = s.buffer ∧ (patrolStart s).link = s.link ∧
      (patrolStart s).remap = s.remap ∧ (patrolStart s).watch = s.watch ∧ (patrolStart s).metaCtl = s.metaCtl ∧
      (patrolStart s).pending = s.pending := by
  unfold patrolStart
  (repeat' split) <;> simp

@[simp] theorem patrolStop_frame (s : State) :
    (patrolStop s).pins = s.pins ∧ (patrolStop s).path = s.path ∧ (patrolStop s).fence = s.fence ∧
      (patrolStop s).tables = s.tables ∧ (patrolStop s).buffer = s.buffer ∧ (patrolStop s).link = s.link ∧
      (patrolStop s).remap = s.remap ∧ (patrolStop s).watch = s.watch ∧ (patrolStop s).metaCtl = s.metaCtl ∧
      (patrolStop s).pending = s.pending := by
  simp [patrolStop]

@[simp] theorem patrolStatus_frame (s : State) :
    (patrolStatus s).pins = s.pins ∧ (patrolStatus s).path = s.path ∧ (patrolStatus s).fence = s.fence ∧
      (patrolStatus s).tables = s.tables ∧ (patrolStatus s).buffer = s.buffer ∧ (patrolStatus s).link = s.link ∧
      (patrolStatus s).remap = s.remap ∧ (patrolStatus s).health = s.health ∧ (patrolStatus s).watch = s.watch ∧
      (patrolStatus s).metaCtl = s.metaCtl ∧ (patrolStatus s).pending = s.pending := by
  simp [patrolStatus]

@[simp] theorem setGrantLimit_frame (s : State) :
    (setGrantLimit s).pins = s.pins ∧ (setGrantLimit s).fence = s.fence ∧ (setGrantLimit s).tables = s.tables ∧
      (setGrantLimit s).remap = s.remap ∧ (setGrantLimit s).health = s.health ∧ (setGrantLimit s).watch = s.watch ∧
      (setGrantLimit s).pending = s.pending := by
  unfold setGrantLimit
  (try dsimp only)
  (repeat' split) <;> simp

@[simp] theorem startFormat_frame (s : State) :
    (startFormat s).pins = s.pins ∧ (startFormat s).path = s.path ∧ (startFormat s).fence = s.fence ∧
      (startFormat s).tables = s.tables ∧ (startFormat s).buffer = s.buffer ∧ (startFormat s).health = s.health ∧
      (startFormat s).watch = s.watch ∧ (startFormat s).pending = s.pending := by
  simp [startFormat]

@[simp] theorem formatArray_frame (s : State) :
    (formatArray s).pins = s.pins ∧ (formatArray s).path = s.path ∧ (formatArray s).fence = s.fence ∧
      (formatArray s).tables = s.tables ∧ (formatArray s).buffer = s.buffer ∧ (formatArray s).health = s.health ∧
      (formatArray s).watch = s.watch ∧ (formatArray s).pending = s.pending := by
  unfold formatArray
  (repeat' split) <;> simp

@[simp] theorem clearTargets_frame (s : State) :
    (clearTargets s).pins = s.pins ∧ (clearTargets s).path = s.path ∧ (clearTargets s).fence = s.fence ∧
      (clearTargets s).tables = s.tables ∧ (clearTargets s).link = s.link ∧ (clearTargets s).remap = s.remap ∧
      (clearTargets s).health = s.health ∧ (clearTargets s).watch = s.watch ∧ (clearTargets s).metaCtl = s.metaCtl ∧
      (clearTargets s).mgmt = s.mgmt ∧ (clearTargets s).events = s.events ∧
      (clearTargets s).pending = s.pending := by
  simp [clearTargets]

@[simp] theorem cancelBusy_frame (b : InProgress) (s : State) :
    (cancelBusy b s).pins = s.pins ∧ (cancelBusy b s).path = s.path ∧ (cancelBusy b s).fence = s.fence ∧
      (cancelBusy b s).tables = s.tables ∧ (cancelBusy b s).link = s.link ∧ (cancelBusy b s).remap = s.remap ∧
      (cancelBusy b s).health = s.health ∧ (cancelBusy b s).watch = s.watch ∧ (cancelBusy b s).metaCtl = s.metaCtl ∧
      (cancelBusy b s).pending = s.pending := by
  unfold cancelBusy
  (repeat' split) <;> simp

@[simp] theorem cancelIdle_frame (s : State) :
    (cancelIdle s).pins = s.pins ∧ (cancelIdle s).path = s.path ∧ (cancelIdle s).fence = s.fence ∧
      (cancelIdle s).tables = s.tables ∧ (cancelIdle s).buffer = s.buffer ∧ (cancelIdle s).link = s.link ∧
      (cancelIdle s).remap = s.remap ∧ (cancelIdle s).health = s.health ∧ (cancelIdle s).watch = s.watch ∧
      (cancelIdle s).metaCtl = s.metaCtl ∧ (cancelIdle s).pending = s.pending := by
  unfold cancelIdle outsideGeometryFault
  split <;> simp

@[simp] theorem writeFlags_frame (g : Group) (v : Word) (s : State) :
    (writeFlags g v s).pins = s.pins ∧ (writeFlags g v s).path = s.path ∧ (writeFlags g v s).fence = s.fence ∧
      (writeFlags g v s).tables = s.tables ∧ (writeFlags g v s).buffer = s.buffer ∧ (writeFlags g v s).link = s.link ∧
      (writeFlags g v s).remap = s.remap ∧ (writeFlags g v s).health = s.health ∧ (writeFlags g v s).watch = s.watch ∧
      (writeFlags g v s).metaCtl = s.metaCtl ∧ (writeFlags g v s).mgmt = s.mgmt ∧
      (writeFlags g v s).pending = s.pending := by
  simp [writeFlags]

@[simp] theorem writeEnables_frame (g : Group) (v : Word) (s : State) :
    (writeEnables g v s).pins = s.pins ∧ (writeEnables g v s).path = s.path ∧ (writeEnables g v s).fence = s.fence ∧
      (writeEnables g v s).tables = s.tables ∧ (writeEnables g v s).buffer = s.buffer ∧
      (writeEnables g v s).link = s.link ∧ (writeEnables g v s).remap = s.remap ∧
      (writeEnables g v s).health = s.health ∧ (writeEnables g v s).watch = s.watch ∧
      (writeEnables g v s).metaCtl = s.metaCtl ∧ (writeEnables g v s).mgmt = s.mgmt ∧
      (writeEnables g v s).pending = s.pending := by
  simp [writeEnables]

@[simp] theorem writeGroupEnable_frame (v : Word) (s : State) :
    (writeGroupEnable v s).pins = s.pins ∧ (writeGroupEnable v s).path = s.path ∧
      (writeGroupEnable v s).fence = s.fence ∧ (writeGroupEnable v s).tables = s.tables ∧
      (writeGroupEnable v s).buffer = s.buffer ∧ (writeGroupEnable v s).link = s.link ∧
      (writeGroupEnable v s).remap = s.remap ∧ (writeGroupEnable v s).health = s.health ∧
      (writeGroupEnable v s).watch = s.watch ∧ (writeGroupEnable v s).metaCtl = s.metaCtl ∧
      (writeGroupEnable v s).mgmt = s.mgmt ∧ (writeGroupEnable v s).pending = s.pending := by
  simp [writeGroupEnable]

@[simp] theorem popIncident_frame (s : State) :
    (popIncident s).pins = s.pins ∧ (popIncident s).path = s.path ∧ (popIncident s).fence = s.fence ∧
      (popIncident s).tables = s.tables ∧ (popIncident s).buffer = s.buffer ∧ (popIncident s).link = s.link ∧
      (popIncident s).remap = s.remap ∧ (popIncident s).health = s.health ∧ (popIncident s).watch = s.watch ∧
      (popIncident s).metaCtl = s.metaCtl ∧ (popIncident s).mgmt = s.mgmt ∧
      (popIncident s).pending = s.pending := by
  simp [popIncident]

@[simp] theorem clearHits_frame (v : Word) (s : State) :
    (clearHits v s).pins = s.pins ∧ (clearHits v s).path = s.path ∧ (clearHits v s).fence = s.fence ∧
      (clearHits v s).tables = s.tables ∧ (clearHits v s).buffer = s.buffer ∧ (clearHits v s).link = s.link ∧
      (clearHits v s).remap = s.remap ∧ (clearHits v s).health = s.health ∧ (clearHits v s).metaCtl = s.metaCtl ∧
      (clearHits v s).mgmt = s.mgmt ∧ (clearHits v s).events = s.events ∧ (clearHits v s).pending = s.pending := by
  unfold clearHits
  (try dsimp only)
  simp

@[simp] theorem writeRegister_frame (index : BitVec 7) (v : Word) (s : State) :
    (writeRegister index v s).pins = s.pins ∧ (writeRegister index v s).path = s.path ∧
      (writeRegister index v s).fence = s.fence ∧ (writeRegister index v s).tables = s.tables ∧
      (writeRegister index v s).buffer = s.buffer ∧ (writeRegister index v s).link = s.link ∧
      (writeRegister index v s).remap = s.remap ∧ (writeRegister index v s).health = s.health ∧
      (writeRegister index v s).watch = s.watch ∧ (writeRegister index v s).metaCtl = s.metaCtl ∧
      (writeRegister index v s).events = s.events ∧ (writeRegister index v s).pending = s.pending := by
  unfold writeRegister
  (try dsimp only)
  (repeat' split) <;> simp

end Sys2Proof.Machine
end

