-- ==== Sys2Proof/Laws/State.lean ====
section
/-!
SUPPORT. What each plain update writes: one lemma for the block it changes, true by definition. With the frames of
Laws/Frame.lean no proof unfolds a record update.
-/

namespace Sys2Proof.Machine

/-! ### Events -/

@[simp] theorem post_events (f : Flag) (s : State) : (post f s).events = s.events.post f := rfl

@[simp] theorem writeFlags_events (g : Group) (v : Word) (s : State) :
    (writeFlags g v s).events = s.events.setGroup g ((s.events.group g).writeFlags v) := rfl

@[simp] theorem writeEnables_events (g : Group) (v : Word) (s : State) :
    (writeEnables g v s).events = s.events.setGroup g ((s.events.group g).writeEnables g v) := rfl

@[simp] theorem writeGroupEnable_events (v : Word) (s : State) :
    (writeGroupEnable v s).events = { s.events with groupEnable := v &&& groupEnableBits } := rfl

@[simp] theorem popIncident_events (s : State) : (popIncident s).events = s.events.pop := rfl

@[simp] theorem setGroup_group (e : Events) (g : Group) (x : EventGroup) : (e.setGroup g x).group g = x := by
  cases g <;> rfl

theorem setGroup_group_ne (e : Events) {g g' : Group} (x : EventGroup) (h : g' ≠ g) :
    (e.setGroup g x).group g' = e.group g' := by
  cases g <;> cases g' <;> first | rfl | exact absurd rfl h

@[simp] theorem setGroup_groupEnable (e : Events) (g : Group) (x : EventGroup) :
    (e.setGroup g x).groupEnable = e.groupEnable := by cases g <;> rfl

@[simp] theorem setGroup_incidents (e : Events) (g : Group) (x : EventGroup) :
    (e.setGroup g x).incidents = e.incidents := by cases g <;> rfl

@[simp] theorem setGroup_popped (e : Events) (g : Group) (x : EventGroup) :
    (e.setGroup g x).popped = e.popped := by cases g <;> rfl

@[simp] theorem events_post_groupEnable (e : Events) (f : Flag) : (e.post f).groupEnable = e.groupEnable := by
  simp [Events.post]

@[simp] theorem events_post_incidents (e : Events) (f : Flag) : (e.post f).incidents = e.incidents := by
  simp [Events.post]

@[simp] theorem events_post_popped (e : Events) (f : Flag) : (e.post f).popped = e.popped := by simp [Events.post]

@[simp] theorem group_post_enables (x : EventGroup) (n : Nat) : (x.post n).enables = x.enables := by
  unfold EventGroup.post; split <;> rfl

/-! ### Ports -/

@[simp] theorem queueOf_setQueue (p : Port) (q : List Taken) (s : State) : queueOf (setQueue p q s) p = q := by
  cases p <;> rfl

theorem queueOf_setQueue_ne {p p' : Port} (q : List Taken) (s : State) (h : p' ≠ p) :
    queueOf (setQueue p q s) p' = queueOf s p' := by
  cases p <;> cases p' <;> first | rfl | exact absurd rfl h

@[simp] theorem setQueue_reads (p : Port) (q : List Taken) (s : State) : (setQueue p q s).path.reads = s.path.reads := by
  cases p <;> rfl

@[simp] theorem setQueue_throughs (p : Port) (q : List Taken) (s : State) :
    (setQueue p q s).path.throughs = s.path.throughs := by cases p <;> rfl

@[simp] theorem setQueue_drainWait (p : Port) (q : List Taken) (s : State) :
    (setQueue p q s).path.drainWait = s.path.drainWait := by cases p <;> rfl

@[simp] theorem setQueue_serial (p : Port) (q : List Taken) (s : State) :
    (setQueue p q s).path.serial = s.path.serial := by cases p <;> rfl

/-- A stand is changed by `restand`. -/
theorem setStand_path (p : Port) (serial : Nat) (st : Stand) (s : State) :
    (setStand p serial st s).path = restand p serial st s.path := by cases p <;> rfl

/-- An answer is held in the queue. -/
theorem answer_eq (p : Port) (serial : Nat) (r : Response) (s : State) :
    answer p serial r s = { s with path := restand p serial (.decided r) s.path } := by cases p <;> rfl

/-- A refusal at intake changes the Line Path alone. -/
theorem refuse_eq (p : Port) (t : Taken) (c : ResponseCode) (s : State) :
    refuse p t c s = { s with path := turnedAway p t c s.path } := by
  unfold refuse turnedAway answered plainResponse
  rw [answer_eq]
  cases t.tx.kind <;> rfl

@[simp] theorem restand_reads (p : Port) (n : Nat) (st : Stand) (x : LinePath) : (restand p n st x).reads = x.reads := by
  cases p <;> rfl

@[simp] theorem restand_throughs (p : Port) (n : Nat) (st : Stand) (x : LinePath) :
    (restand p n st x).throughs = x.throughs := by cases p <;> rfl

@[simp] theorem restand_drainWait (p : Port) (n : Nat) (st : Stand) (x : LinePath) :
    (restand p n st x).drainWait = x.drainWait := by cases p <;> rfl

@[simp] theorem restand_serial (p : Port) (n : Nat) (st : Stand) (x : LinePath) :
    (restand p n st x).serial = x.serial := by cases p <;> rfl

/-! ### Pending work and the array port -/

@[simp] theorem placeOp_link (o : ArrayOp) (s : State) :
    (placeOp o s).link = { s.link with work := s.link.work ++ [o] } := rfl

@[simp] theorem removeWork_link (gone : ArrayOp → Bool) (s : State) :
    (removeWork gone s).link = { s.link with work := s.link.work.filter fun o => !gone o } := rfl

@[simp] theorem freePort_link (s : State) : (freePort s).link = { s.link with inFlight := none } := rfl

theorem freePort_eq (s : State) : freePort s = portFreed s := rfl

@[simp] theorem portFreed_link (s : State) : (portFreed s).link = { s.link with inFlight := none } := rfl

@[simp] theorem setClaims_work (line : Nat) (r : ClaimRecord) (s : State) :
    (setClaims line r s).link.work = s.link.work := rfl

@[simp] theorem setClaims_inFlight (line : Nat) (r : ClaimRecord) (s : State) :
    (setClaims line r s).link.inFlight = s.link.inFlight := rfl

/-! ### Remap Unit -/

@[simp] theorem setServing_remap (v : Serving) (s : State) :
    (setServing v s).remap = { s.remap with serving := some v } := rfl

@[simp] theorem setRecord_table (slot : Nat) (r : SlotRecord) (s : State) :
    (setRecord slot r s).remap.table = s.remap.table := rfl

@[simp] theorem setRecord_dead (slot : Nat) (r : SlotRecord) (s : State) :
    (setRecord slot r s).remap.dead = s.remap.dead := rfl

@[simp] theorem setRecord_workList (slot : Nat) (r : SlotRecord) (s : State) :
    (setRecord slot r s).remap.workList = s.remap.workList := rfl

@[simp] theorem setRecord_fault (slot : Nat) (r : SlotRecord) (s : State) :
    (setRecord slot r s).remap.fault = s.remap.fault := rfl

theorem joinWork_workList (r : Request) (s : State) :
    (joinWork r s).remap = { s.remap with workList := s.remap.workList ++ [r] } := by
  unfold joinWork; split <;> rfl

/-! ### Media Health Unit -/

@[simp] theorem removeCandidate_health (line : Nat) (s : State) :
    (removeCandidate line s).health =
      { s.health with candidates := s.health.candidates.filter fun c => c.line != line } := rfl

@[simp] theorem removeQueuedJob_health (line : Nat) (s : State) :
    (removeQueuedJob line s).health = { s.health with queue := s.health.queue.filter fun j => j.line != line } := rfl

@[simp] theorem setJob_health (line : Nat) (f : Job → Job) (s : State) :
    (setJob line f s).health =
      { s.health with jobs := s.health.jobs.map fun j => if j.line = line then f j else j } := rfl

@[simp] theorem setPatrol_health (f : Patrol → Patrol) (s : State) :
    (setPatrol f s).health = { s.health with patrol := f s.health.patrol } := rfl

/-! ### Watches, phases, the command engine -/

@[simp] theorem setIndex_watch (i : Nat) (s : State) : (setIndex i s).watch = { s.watch with index := i } := rfl

@[simp] theorem clearHits_watch (v : Word) (s : State) :
    (clearHits v s).watch =
      { s.watch with
        ranges := s.watch.ranges.mapIdx fun i r => if v.getLsbD i then { r with hit := false } else r } := rfl

@[simp] theorem setPhase_metaCtl (p : Phase) (s : State) :
    (setPhase p s).metaCtl = { s.metaCtl with phase := p } := rfl

@[simp] theorem setPhase_events (p : Phase) (s : State) : (setPhase p s).events = s.events.post .phaseChange := rfl

@[simp] theorem unlistRepair_metaCtl (t : MetaLine) (s : State) :
    (unlistRepair t s).metaCtl =
      { s.metaCtl with repair := s.metaCtl.repair.filter fun u => decide (u ≠ t) } := rfl

@[simp] theorem completeWith_mgmt (r : ResultCode) (data : List Word) (s : State) :
    (completeWith r data s).mgmt =
      { s.mgmt with result := r.code, rdata := data ++ List.replicate (8 - data.length) 0#32, busy := none } := rfl

@[simp] theorem completeWith_events (r : ResultCode) (data : List Word) (s : State) :
    (completeWith r data s).events = s.events.post .commandDone := rfl

@[simp] theorem complete_mgmt (r : ResultCode) (s : State) :
    (complete r s).mgmt = { s.mgmt with result := r.code, rdata := List.replicate 8 0#32, busy := none } := rfl

@[simp] theorem complete_events (r : ResultCode) (s : State) :
    (complete r s).events = s.events.post .commandDone := rfl

@[simp] theorem setBusy_mgmt (b : InProgress) (s : State) : (setBusy b s).mgmt = { s.mgmt with busy := some b } := rfl

@[simp] theorem setLock_fence (l : LockState) (s : State) : (setLock l s).fence = { s.fence with lock := l } := rfl

/-- A code taken while the Command Engine is idle is carried out with the parameters copied (R173). -/
theorem takeCommand_idle {s : State} (h : idle s = true) (code : BitVec 8) (carry : State → State) :
    takeCommand code carry s = carry { s with mgmt := { s.mgmt with command := code, copy := s.mgmt.params } } := by
  simp only [idle, Bool.and_eq_true, Bool.not_eq_true', Option.isNone_iff_eq_none] at h
  simp [takeCommand, h.1, h.2]

/-! ### PORST -/

@[simp] theorem powerOn_pins (p : Pins) (u : Nat) (ph : Phase) (w : List ArrayOp) (q : List Instr) :
    (State.powerOn p u ph w q).pins = p := rfl

@[simp] theorem powerOn_pending (p : Pins) (u : Nat) (ph : Phase) (w : List ArrayOp) (q : List Instr) :
    (State.powerOn p u ph w q).pending = q := rfl

/-- On the part out of PORST a meaning is its function of the state. -/
theorem onPart_out {s : State} (h : s.pins.porst = false) (f : State → State) : onPart f s = .next (f s) := by
  simp [onPart, h]

end Sys2Proof.Machine
end

