-- ==== Sys2Proof/Laws/Sparse.lean ====
section
/-!
SUPPORT. The sparse tables: what a key reads as after an update, and that every update keeps the keys rising.
-/

namespace Sys2Proof.Machine

/-- A key that was given a value reads as it. -/
@[simp] theorem sparseGet_set {α : Type} (l : List (Nat × α)) (k : Nat) (v : α) :
    sparseGet (sparseSet l k v) k = some v := by
  induction l with
  | nil => simp [sparseSet, sparseGet]
  | cons a l ih =>
    obtain ⟨x, y⟩ := a
    simp only [sparseSet]
    split
    · simp [sparseGet]
    · split
      · simp [sparseGet]
      · simp [sparseGet, *]

/-- A key that was taken out reads as nothing. -/
@[simp] theorem sparseGet_del {α : Type} (l : List (Nat × α)) (k : Nat) : sparseGet (sparseDel l k) k = none := by
  induction l with
  | nil => rfl
  | cons a l ih =>
    obtain ⟨x, y⟩ := a
    by_cases h : x = k
    · simpa [sparseDel, h] using ih
    · simpa [sparseDel, h, sparseGet] using ih

/-- Giving one key a value leaves the others as they read. -/
theorem sparseGet_set_ne {α : Type} (l : List (Nat × α)) {k j : Nat} (v : α) (h : j ≠ k) :
    sparseGet (sparseSet l k v) j = sparseGet l j := by
  induction l with
  | nil => simp [sparseSet, sparseGet, Ne.symm h]
  | cons a l ih =>
    obtain ⟨x, y⟩ := a
    simp only [sparseSet]
    split
    · simp [sparseGet, Ne.symm h]
    · split
      · rename_i hx
        subst hx
        simp [sparseGet, Ne.symm h]
      · simp only [sparseGet, ih]

/-- Taking one key out leaves the others as they read. -/
theorem sparseGet_del_ne {α : Type} (l : List (Nat × α)) {k j : Nat} (h : j ≠ k) :
    sparseGet (sparseDel l k) j = sparseGet l j := by
  induction l with
  | nil => rfl
  | cons a l ih =>
    obtain ⟨x, y⟩ := a
    by_cases hx : x = k
    · subst hx
      have h1 : sparseDel ((x, y) :: l) x = sparseDel l x := by simp [sparseDel]
      rw [h1, ih]
      simp [sparseGet, Ne.symm h]
    · have h1 : sparseDel ((x, y) :: l) k = (x, y) :: sparseDel l k := by simp [sparseDel, hx]
      rw [h1]
      simp only [sparseGet, ih]

/-- The keys of an updated table are its keys and the new one. -/
theorem mem_keys_set {α : Type} (l : List (Nat × α)) (k : Nat) (v : α) (j : Nat) :
    j ∈ (sparseSet l k v).map Prod.fst ↔ j = k ∨ j ∈ l.map Prod.fst := by
  induction l with
  | nil => simp [sparseSet]
  | cons a l ih =>
    obtain ⟨x, y⟩ := a
    simp only [sparseSet]
    split
    · simp
    · split
      · rename_i hx
        subst hx
        simp
      · simp only [List.map_cons, List.mem_cons, ih]
        tauto

/-- A value given to a key keeps the keys rising. -/
theorem sparseWf_set {α : Type} (l : List (Nat × α)) (k : Nat) (v : α) (h : sparseWf l = true) :
    sparseWf (sparseSet l k v) = true := by
  simp only [sparseWf, decide_eq_true_eq] at h ⊢
  induction l with
  | nil => simp [sparseSet]
  | cons a l ih =>
    obtain ⟨x, y⟩ := a
    rw [List.map_cons, List.pairwise_cons] at h
    simp only [sparseSet]
    split
    · rename_i hk
      rw [List.map_cons, List.pairwise_cons]
      refine ⟨?_, by rw [List.map_cons, List.pairwise_cons]; exact h⟩
      intro j hj
      rw [List.map_cons, List.mem_cons] at hj
      rcases hj with rfl | hj
      · exact hk
      · exact Nat.lt_trans hk (h.1 j hj)
    · split
      · rename_i hx
        subst hx
        rw [List.map_cons, List.pairwise_cons]
        exact h
      · rename_i hk hx
        rw [List.map_cons, List.pairwise_cons]
        refine ⟨?_, ih h.2⟩
        intro j hj
        rcases (mem_keys_set l k v j).1 hj with rfl | hj
        · show x < j
          omega
        · exact h.1 j hj

/-- A key taken out keeps the keys rising. -/
theorem sparseWf_del {α : Type} (l : List (Nat × α)) (k : Nat) (h : sparseWf l = true) :
    sparseWf (sparseDel l k) = true := by
  simp only [sparseWf, decide_eq_true_eq] at h ⊢
  exact h.sublist (List.Sublist.map _ List.filter_sublist)

/-- The numbers of a rising list with one put in. -/
theorem mem_insertNat (l : List Nat) (k j : Nat) : j ∈ insertNat l k ↔ j = k ∨ j ∈ l := by
  induction l with
  | nil => simp [insertNat]
  | cons a l ih =>
    simp only [insertNat]
    split
    · simp
    · split
      · rename_i hx
        subst hx
        simp
      · simp only [List.mem_cons, ih]
        tauto

/-- A number put into a rising list keeps it rising. -/
theorem pairwise_insertNat (l : List Nat) (k : Nat) (h : l.Pairwise (· < ·)) : (insertNat l k).Pairwise (· < ·) := by
  induction l with
  | nil => simp [insertNat]
  | cons a l ih =>
    rw [List.pairwise_cons] at h
    simp only [insertNat]
    split
    · rename_i hk
      rw [List.pairwise_cons]
      refine ⟨?_, List.pairwise_cons.2 h⟩
      intro j hj
      rcases List.mem_cons.1 hj with rfl | hj
      · exact hk
      · exact Nat.lt_trans hk (h.1 j hj)
    · split
      · exact List.pairwise_cons.2 h
      · rename_i hk hx
        rw [List.pairwise_cons]
        refine ⟨?_, ih h.2⟩
        intro j hj
        rcases (mem_insertNat l k j).1 hj with rfl | hj
        · omega
        · exact h.1 j hj

end Sys2Proof.Machine
end

