-- ==== Sys2Proof/Laws/Claims.lean ====
section
/-!
SUPPORT. The claim table: what a line's record reads as after each of its operations (R92 to R94).
-/

namespace Sys2Proof.Machine

/-- Holders with a claimant added are not none. -/
@[simp] theorem isNone_add (h : Holders) (k : ClaimKind) (o : Claimant) : (h.add k o).isNone = false := by
  cases k <;> cases h <;> try rfl
  rename_i os
  cases os <;> rfl

/-- A record that is stored is read back; an empty one reads as an absent one. -/
theorem claimRecord_setClaims (line : Nat) (r : ClaimRecord) (s : State) :
    claimRecord (setClaims line r s) line =
      if r.holders.isNone && r.waiting.isEmpty then { holders := .shared [], waiting := [] } else r := by
  simp only [claimRecord, setClaims]
  split <;> simp_all

/-- The record of every other line reads as before. -/
theorem claimRecord_setClaims_ne {line other : Nat} (r : ClaimRecord) (s : State) (h : other ≠ line) :
    claimRecord (setClaims line r s) other = claimRecord s other := by
  simp only [claimRecord, setClaims]
  split
  · rw [sparseGet_del_ne _ h]
  · rw [sparseGet_set_ne _ _ h]

/-- Holders that hold nothing are the empty shared ones. -/
theorem holders_of_isNone {h : Holders} (hn : h.isNone = true) : h = .shared [] := by
  cases h with
  | exclusive o => simp [Holders.isNone] at hn
  | shared os => cases os with
    | nil => rfl
    | cons o os => simp [Holders.isNone] at hn

/-- An empty record is the record of an absent one. -/
theorem claimRecord_set_eq (line : Nat) (r : ClaimRecord) (s : State) : claimRecord (setClaims line r s) line = r := by
  rw [claimRecord_setClaims]
  split
  · rename_i h
    simp only [Bool.and_eq_true, List.isEmpty_iff] at h
    obtain ⟨hh, hw⟩ := h
    cases r
    simp only at hh hw
    rw [hw, holders_of_isNone hh]
  · rfl

/-- A request is granted at once or joins the end of the waiting ones (R93). -/
theorem claimRecord_requestClaim (line : Nat) (k : ClaimKind) (o : Claimant) (s : State) :
    claimRecord (requestClaim line k o s) line =
      if grantedAtOnce s line k then
        { claimRecord s line with holders := (claimRecord s line).holders.add k o }
      else { claimRecord s line with waiting := (claimRecord s line).waiting ++ [{ kind := k, owner := o }] } := by
  simp only [requestClaim]
  split <;> rw [claimRecord_set_eq]

/-- A release or withdrawal takes the claimant out of the line's record (R94). -/
theorem claimRecord_dropClaim (line : Nat) (o : Claimant) (s : State) :
    claimRecord (dropClaim line o s) line = withoutClaimant o (claimRecord s line) := by
  simp only [dropClaim, claimRecord_set_eq, withoutClaimant]

/-- A request changes the claims alone in the Array Link. -/
theorem requestClaim_link (line : Nat) (k : ClaimKind) (o : Claimant) (s : State) :
    (requestClaim line k o s).link = { s.link with claims := (requestClaim line k o s).link.claims } := by
  simp only [requestClaim, setClaims]
  split <;> rfl

/-- A release or withdrawal changes the claims alone in the Array Link. -/
theorem dropClaim_link (line : Nat) (o : Claimant) (s : State) :
    (dropClaim line o s).link = { s.link with claims := (dropClaim line o s).link.claims } := rfl

/-- What R93 grants at once. -/
theorem grantedAtOnce_eq (s : State) (line : Nat) (k : ClaimKind) : grantedAtOnce s line k = claimFree s line k := by
  simp [grantedAtOnce, claimFree, Bool.and_comm]

end Sys2Proof.Machine
end

