-- ==== Sys2Proof/Laws/Health.lean ====
section
/-!
SUPPORT. Offers to the candidate list, case by case (R123 to R125).
-/

namespace Sys2Proof.Machine

/-- A line that is a candidate, in a reassign with no data or in a job in flight is not offered again
(R124, log entry 29). -/
theorem offer_present {line : Nat} {s : State} (source : Source)
    (h : (isCandidate s line || noDataPresent s line || jobInFlight s line) = true) : offer line source s = s := by
  simp only [Bool.or_eq_true] at h
  rcases h with (h | h) | h <;> simp [offer, h]

/-- Any other line joins the list where it has room, and leaves the relocation queue (R124). -/
theorem offer_health {line : Nat} {s : State} (source : Source)
    (h : (isCandidate s line || noDataPresent s line || jobInFlight s line) = false)
    (room : s.health.candidates.length < Config.candidateDepth) :
    (offer line source s).health =
      { s.health with
        queue := s.health.queue.filter fun j => j.line != line
        candidates := s.health.candidates ++ [{ line := line, source := source }] } := by
  simp only [Bool.or_eq_false_iff] at h
  have r : ¬Config.candidateDepth ≤ s.health.candidates.length := Nat.not_le.mpr room
  simp [offer, h, r, removeQueuedJob]

end Sys2Proof.Machine
end

