-- ==== Sys2Proof/Laws/Intake.lean ====
section
/-!
SUPPORT. Intake, check by check: what INTAKE answers on a transaction that has passed the earlier steps (R9).
-/

namespace Sys2Proof.Machine

/-- INTAKE runs the ordered checks on the transaction at intake. -/
theorem exec_intake {p : Port} {t : Taken} {s : State} (h : AtIntake s p t) :
    exec (.intake p) s = .next (checkTransaction p t s) := by
  obtain ⟨h1, h2, h3⟩ := h
  simp [exec, execIntake, onPart, h1, runIntake, h2, h3]

/-- A transaction that passes steps 1 to 4 comes to the watches. -/
theorem exec_intake_admitted {p : Port} {t : Taken} {s : State} (h : AtIntake s p t) (ha : Admitted s p t) :
    exec (.intake p) s = .next (checkWatches p t (regionLookup s (txLine t.tx)).cls s) := by
  obtain ⟨h1, h2, h3, h4⟩ := ha
  have h3' : ¬ s.fence.current ≤ txLine t.tx := by omega
  rw [exec_intake h]
  simp [checkTransaction, h1, h2, h3', h4]

/-- A transaction that passes step 5 comes to the power warning and step 8 on the watched state. -/
theorem exec_intake_passed {p : Port} {t : Taken} {s : State} (h : AtIntake s p t) (hp : Passed s p t) :
    exec (.intake p) s =
      .next
        (if t.tx.kind = .read then intakeRead p t (watched p t s)
         else if s.pins.pwarn then refuse p t .retry (watched p t s)
         else intakeWrite p t (regionLookup s (txLine t.tx)).cls (watched p t s)) := by
  rw [exec_intake_admitted h hp.1]
  have hpins : (sequenceStep p t.tx (watchStep p t.tx s)).pins = s.pins := by simp
  cases hk : t.tx.kind <;> simp [checkWatches, hp.2, watched, hk]

/-- Steps 5 and 6 change the watches and the events alone. -/
@[simp] theorem watched_frame (p : Port) (t : Taken) (s : State) :
    (watched p t s).pins = s.pins ∧ (watched p t s).path = s.path ∧ (watched p t s).fence = s.fence
      ∧ (watched p t s).tables = s.tables ∧ (watched p t s).buffer = s.buffer ∧ (watched p t s).link = s.link
      ∧ (watched p t s).remap = s.remap ∧ (watched p t s).health = s.health
      ∧ (watched p t s).metaCtl = s.metaCtl ∧ (watched p t s).mgmt = s.mgmt
      ∧ (watched p t s).pending = s.pending := by
  simp [watched]

/-- The first entry of a list that passes a test. -/
theorem find_first {α : Type} (f : α → Bool) (before : List α) (x : α) (after : List α)
    (h : ∀ y ∈ before, f y = false) (hx : f x = true) : (before ++ x :: after).find? f = some x := by
  induction before with
  | nil => simp [hx]
  | cons y ys ih =>
    rw [List.cons_append, List.find?_cons, h y (by simp)]
    exact ih fun z hz => h z (by simp [hz])

/-- Its place in the list. -/
theorem findIdx_first {α : Type} (f : α → Bool) (before : List α) (x : α) (after : List α)
    (h : ∀ y ∈ before, f y = false) (hx : f x = true) : (before ++ x :: after).findIdx? f = some before.length := by
  induction before with
  | nil => simp [List.findIdx?_cons, hx]
  | cons y ys ih =>
    have ih' := ih fun z hz => h z (by simp [hz])
    rw [List.cons_append, List.findIdx?_cons, h y (by simp), ih']
    simp

end Sys2Proof.Machine
end

