-- ==== Sys2Proof/Laws/Search.lean ====
section
/-!
SUPPORT. Bytes of a line, and the two bounded searches: the lowest FREE slot and the patrol's next line.
-/

namespace Sys2Proof.Machine

/-- Byte i of a line built from its bytes. -/
@[simp] theorem byteAt_lineOf (f : Nat → Byte) {i : Nat} (h : i < 64) : byteAt (lineOf f) i = f i := by
  simp [byteAt, lineOf, h]

/-- A byte the mask covers is the new one, and any other the old one (R56, R61). -/
theorem byteAt_overlay (mask : Mask) (new old : LineData) {i : Nat} (h : i < 64) :
    byteAt (overlay mask new old) i = if mask.getLsbD i then byteAt new i else byteAt old i := by
  simp [overlay, h]

/-- A line built from its bytes has 64 of them. -/
@[simp] theorem length_lineOf (f : Nat → Byte) : (lineOf f).length = 64 := by simp [lineOf]

/-- A forwarded span has its size. -/
@[simp] theorem length_slice (d : LineData) (offset size : Nat) : (slice d offset size).length = size := by
  simp [slice]

/-- The search finds the first FREE slot at or above its start. -/
theorem lowestFreeFrom_found (s : State) (slot : Nat) (free : poolState s slot = .free) (fuel n : Nat) (above : n ≤ slot)
    (within : slot < n + fuel) (below : ∀ m, n ≤ m → m < slot → poolState s m ≠ .free) :
    lowestFreeFrom s n fuel = some slot := by
  induction fuel generalizing n with
  | zero => omega
  | succ fuel ih =>
    by_cases hn : n = slot
    · subst hn
      simp [lowestFreeFrom, free]
    · simp only [lowestFreeFrom, below n (Nat.le_refl n) (by omega), if_false]
      exact ih (n + 1) (by omega) (by omega) fun m hm => below m (by omega)

/-- The search finds nothing where no slot is FREE. -/
theorem lowestFreeFrom_none (s : State) (fuel n : Nat) (used : ∀ m, n ≤ m → m < n + fuel → poolState s m ≠ .free) :
    lowestFreeFrom s n fuel = none := by
  induction fuel generalizing n with
  | zero => rfl
  | succ fuel ih =>
    simp only [lowestFreeFrom, used n (Nat.le_refl n) (by omega), if_false]
    exact ih (n + 1) fun m hm hm' => used m (by omega) (by omega)

/-- What the search finds is FREE and within its bounds. -/
theorem lowestFreeFrom_spec (s : State) (slot fuel n : Nat) (h : lowestFreeFrom s n fuel = some slot) :
    poolState s slot = .free ∧ n ≤ slot ∧ slot < n + fuel := by
  induction fuel generalizing n with
  | zero => simp [lowestFreeFrom] at h
  | succ fuel ih =>
    by_cases hf : poolState s n = .free
    · simp only [lowestFreeFrom, hf, if_true, Option.some.injEq] at h
      subst h
      exact ⟨hf, by omega, by omega⟩
    · simp only [lowestFreeFrom, hf, if_false] at h
      obtain ⟨h1, h2, h3⟩ := ih (n + 1) h
      exact ⟨h1, by omega, by omega⟩

/-- The patrol's search finds the first line that is not passed over (R139). -/
theorem scanFrom_found (s : State) (line : Nat) (stays : passedOver s line = false) (fuel n : Nat) (above : n ≤ line)
    (within : line < n + fuel) (below : ∀ l, n ≤ l → l < line → passedOver s l = true) :
    scanFrom s n fuel = some line := by
  induction fuel generalizing n with
  | zero => omega
  | succ fuel ih =>
    by_cases hn : n = line
    · subst hn
      simp [scanFrom, stays]
    · simp only [scanFrom, below n (Nat.le_refl n) (by omega), if_true]
      exact ih (n + 1) (by omega) (by omega) fun l hl => below l (by omega)

/-- The patrol's search finds nothing where every line is passed over. -/
theorem scanFrom_none (s : State) (fuel n : Nat) (all : ∀ l, n ≤ l → l < n + fuel → passedOver s l = true) :
    scanFrom s n fuel = none := by
  induction fuel generalizing n with
  | zero => rfl
  | succ fuel ih =>
    simp only [scanFrom, all n (Nat.le_refl n) (by omega), if_true]
    exact ih (n + 1) fun l hl hl' => all l (by omega) (by omega)

end Sys2Proof.Machine
end

