-- ==== Sys2Proof/Laws/Lookup.lean ====
section
/-!
SUPPORT. What the lookups and judgements of the blocks answer, one lemma for each (R16, R39, R44, R52, R58, R68, R71, R96,
R97, R102, R103, R139, R145).
-/

namespace Sys2Proof.Machine

/-! ### Operands -/

/-- The offsets of a span (R1). -/
theorem getLsbD_spanMask (offset size : Nat) {i : Nat} (h : i < 64) :
    (spanMask offset size).getLsbD i = true ↔ offset ≤ i ∧ i < offset + size := by
  simp only [spanMask, BitVec.getLsbD_and, BitVec.getLsbD_not, BitVec.getLsbD_shiftLeft, BitVec.getLsbD_allOnes, h,
    Bool.and_eq_true, Bool.not_eq_true', decide_true, Bool.true_and, Bool.and_eq_false_iff, decide_eq_true_eq,
    decide_eq_false_iff_not, Bool.not_eq_false']
  constructor
  · rintro ⟨⟨h1, _⟩, h2 | h2⟩ <;> omega
  · rintro ⟨h1, h2⟩
    exact ⟨⟨by omega, by omega⟩, Or.inl (by omega)⟩

/-- Byte i of a write's data lies at offset + i (R1). -/
theorem byteAt_placeBytes (offset : Nat) (data : List Byte) {i : Nat} (h : offset + i < 64) :
    byteAt (placeBytes offset data) (offset + i) = data.getD i 0#8 := by
  simp [placeBytes, h]

/-! ### The Watch Unit -/

/-- The four tests of a range watch (R145). -/
theorem rangeMatches_iff (p : Port) (tx : Transaction) (r : RangeWatch) :
    rangeMatches p tx r = true ↔
      r.enabled = true ∧ tx.addr.toNat ≤ r.last ∧ r.first ≤ tx.addr.toNat + tx.size - 1
        ∧ (r.kinds = .both ∨ (r.kinds = .read ∧ tx.kind = .read) ∨ (r.kinds = .write ∧ tx.kind = .write))
        ∧ (r.ports = .both ∨ (r.ports = .a ∧ p = .a) ∨ (r.ports = .b ∧ p = .b)) := by
  have hk : r.kinds.covers tx.kind = true
      ↔ (r.kinds = .both ∨ (r.kinds = .read ∧ tx.kind = .read) ∨ (r.kinds = .write ∧ tx.kind = .write)) := by
    cases r.kinds <;> cases tx.kind <;> decide
  have hp : r.ports.covers p = true ↔ (r.ports = .both ∨ (r.ports = .a ∧ p = .a) ∨ (r.ports = .b ∧ p = .b)) := by
    cases r.ports <;> cases p <;> decide
  simp only [rangeMatches, Bool.and_eq_true, decide_eq_true_eq, hk, hp, and_assoc]
  rfl

/-! ### Regions, classes and posting -/

/-- The class of a line is that of the first enabled region that contains it (R39, R41). -/
theorem lineClass_region {s : State} {line : Nat} {before after : List RegionEntry} {r : RegionEntry}
    (split : s.tables.regions = before ++ r :: after) (others : ∀ x ∈ before, regionCovers x line = false)
    (covers : regionCovers r line = true) : lineClass s line = s.tables.classes.getD r.cls classDefault := by
  have none : before.find? (fun x => regionCovers x line) = none := by
    simpa [List.find?_eq_none] using others
  simp [lineClass, regionLookup, split, List.find?_append, none, covers, classEntry]

/-- A line in no enabled region is in class 0 (R39, R41). -/
theorem lineClass_default {s : State} {line : Nat} (others : ∀ x ∈ s.tables.regions, regionCovers x line = false) :
    lineClass s line = s.tables.classes.getD 0 classDefault := by
  have none : s.tables.regions.find? (fun x => regionCovers x line) = none := by
    simpa [List.find?_eq_none] using others
  simp [lineClass, regionLookup, none, classEntry, Lookup.default]

/-- What covering asks (R38). -/
theorem regionCovers_iff (r : RegionEntry) (line : Nat) :
    regionCovers r line = true ↔ r.enabled = true ∧ r.first ≤ line ∧ line ≤ r.last := by
  simp [regionCovers, and_assoc]

/-- A line is posted while its class is POSTED and posting is not suspended (R42, R71). -/
theorem postingLine_iff (s : State) (line : Nat) :
    postingLine s line = true ↔
      (lineClass s line).mode = .posted
        ∧ ¬(s.remap.loaded = true ∧ 4096 - s.remap.dead.length - s.remap.table.length ≤ 64) := by
  have suspended : postingSuspended s = true
      ↔ s.remap.loaded = true ∧ 4096 - s.remap.dead.length - s.remap.table.length ≤ 64 := by
    simp only [postingSuspended, Bool.and_eq_true, decide_eq_true_eq]
    rfl
  simp only [postingLine, Bool.and_eq_true, decide_eq_true_eq, Bool.not_eq_true', ← suspended, Bool.not_eq_true]

/-- A line is written through in a THROUGH class or while posting is suspended (R42, R71). -/
theorem postingLine_false_iff (s : State) (line : Nat) :
    postingLine s line = false ↔
      (lineClass s line).mode = .through
        ∨ (s.remap.loaded = true ∧ 4096 - s.remap.dead.length - s.remap.table.length ≤ 64) := by
  rw [Bool.eq_false_iff, Ne, postingLine_iff]
  cases (lineClass s line).mode <;> simp

/-- The threshold of the line's class decides; OFF is never reached (R44). -/
theorem corrected_iff (s : State) (line : Nat) (ecc : Ecc) :
    corrected s line ecc = true ↔ ∃ k n, ecc = .corrected k ∧ (lineClass s line).threshold = .bits n ∧ n ≤ k := by
  cases ecc with
  | corrected k => cases h : (lineClass s line).threshold <;> simp [corrected, thresholdReached, h]
  | _ => simp [corrected]

/-- The patrol passes over EXCLUDED and POISONED lines (R139). -/
theorem passedOver_iff (s : State) (line : Nat) :
    passedOver s line = true ↔ (lineClass s line).patrol = .excluded ∨ dataState s line = .poisoned := by
  simp [passedOver]

/-! ### The Posting Buffer -/

/-- The line's PENDING entry exists (R54). -/
theorem pendingEntry_isSome (s : State) (line : Nat) :
    (pendingEntry s line).isSome = true ↔ ∃ e ∈ s.buffer.entries, e.line = line ∧ e.state = .pending := by
  simp [pendingEntry, List.find?_isSome]

/-- No entry of the line is left (R72). -/
theorem lineClear_iff (s : State) (line : Nat) :
    lineClear s line = true ↔ ∀ e ∈ s.buffer.entries, e.line ≠ line := by
  simp only [lineClear, pendingEntry, lineDraining, Bool.and_eq_true, Option.isNone_iff_eq_none, List.find?_eq_none,
    beq_iff_eq, not_and]
  constructor
  · rintro ⟨hp, hd⟩ e he hl
    cases hs : e.state with
    | pending => exact hp e he hl hs
    | draining => exact hd e he hl hs
  · exact fun h => ⟨fun e he hl => (h e he hl).elim, fun e he hl => (h e he hl).elim⟩

/-- A system entry is free by the capacity and by the 32 entries (R52). -/
theorem systemEntryFree_iff (s : State) :
    systemEntryFree s = true ↔
      s.buffer.entries.length < systemCapacity s ∧ s.buffer.entries.length + s.health.jobs.length < 32 := by
  simp only [systemEntryFree, entryFree, Bool.and_eq_true, decide_eq_true_eq]
  rfl

/-- A staging entry is free by the capacity and by the 32 entries (R52). -/
theorem stagingEntryFree_iff (s : State) :
    stagingEntryFree s = true ↔
      s.health.jobs.length < stagingCapacity s ∧ s.buffer.entries.length + s.health.jobs.length < 32 := by
  simp only [stagingEntryFree, entryFree, Bool.and_eq_true, decide_eq_true_eq]
  rfl

/-- The system capacity, the smaller one in a reserve wait (R52). -/
theorem systemCapacity_eq (s : State) :
    systemCapacity s =
      match s.mgmt.busy with
      | some (.reserve n) => min (32 - s.buffer.reserve) (32 - n)
      | _ => 32 - s.buffer.reserve := by
  simp only [systemCapacity, reserveWait]
  cases s.mgmt.busy with
  | none => rfl
  | some b => cases b <;> rfl

/-- The staging capacity, the smaller one in a reserve wait (R52). -/
theorem stagingCapacity_eq (s : State) :
    stagingCapacity s =
      match s.mgmt.busy with
      | some (.reserve n) => min s.buffer.reserve n
      | _ => s.buffer.reserve := by
  simp only [stagingCapacity, reserveWait]
  cases s.mgmt.busy with
  | none => rfl
  | some b => cases b <;> rfl

/-- The bytes that the entries of a line give (R58). -/
theorem getLsbD_forwardMask (s : State) (line i : Nat) :
    (forwardMask s line).getLsbD i = true ↔
      (∃ e, pendingEntry s line = some e ∧ e.mask.getLsbD i = true)
        ∨ ∃ e, lineDraining s line = some e ∧ e.mask.getLsbD i = true := by
  cases hp : pendingEntry s line <;> cases hd : lineDraining s line <;> simp [forwardMask, hp, hd]

/-- A byte of the PENDING entry is forwarded first (R58). -/
theorem byteAt_forwardData_pending {s : State} {line i : Nat} {e : SystemEntry} (h : i < 64)
    (pending : pendingEntry s line = some e) (covers : e.mask.getLsbD i = true) :
    byteAt (forwardData s line) i = byteAt e.data i := by
  simp only [forwardData, pending]
  rw [byteAt_overlay _ _ _ h, if_pos covers]

/-- A byte that no PENDING entry gives comes from the DRAINING entry (R58). -/
theorem byteAt_forwardData_draining {s : State} {line i : Nat} {e : SystemEntry} (h : i < 64)
    (pending : ¬∃ e, pendingEntry s line = some e ∧ e.mask.getLsbD i = true) (draining : lineDraining s line = some e)
    (covers : e.mask.getLsbD i = true) : byteAt (forwardData s line) i = byteAt e.data i := by
  cases hp : pendingEntry s line with
  | none =>
    simp only [forwardData, hp, draining]
    rw [byteAt_overlay _ _ _ h, if_pos covers]
  | some d =>
    have uncovered : ¬d.mask.getLsbD i = true := fun hd => pending ⟨d, hp, hd⟩
    simp only [forwardData, hp, draining]
    rw [byteAt_overlay _ _ _ h, if_neg uncovered, byteAt_overlay _ _ _ h, if_pos covers]

/-- A drain's first operation is urgent in three cases (R68). -/
theorem drainUrgent_iff (s : State) :
    drainUrgent s = true ↔
      systemCapacity s - s.buffer.entries.length ≤ 8 ∨ s.pins.pwarn = true
        ∨ ∃ e, drainingEntry s = some e ∧ e.target = true := by
  cases h : drainingEntry s <;> simp [drainUrgent, systemInUse, Config.urgentFree, h, or_assoc]

/-! ### The Remap Unit -/

/-- Some byte asked for is not known, by the line's data state (R16). -/
theorem poisonedFor_iff (s : State) (line : Nat) (asked : Mask) :
    poisonedFor s line asked = true ↔
      ∃ e, remapEntry s line = some e
        ∧ (e.data = .poisoned
          ∨ ∃ valid, e.data = .partialOf valid ∧ ∃ i, asked.getLsbD i = true ∧ valid.getLsbD i = false) := by
  have outside (valid : Mask) : asked &&& ~~~valid ≠ Mask.empty
      ↔ ∃ i, asked.getLsbD i = true ∧ valid.getLsbD i = false := by
    constructor
    · intro h
      by_contra hn
      simp only [not_exists, not_and] at hn
      refine h (BitVec.eq_of_getLsbD_eq fun i hi => ?_)
      cases ha : asked.getLsbD i with
      | false => simp [ha]
      | true => simp [ha, hi, Bool.eq_true_of_not_eq_false (hn i ha)]
    · rintro ⟨i, ha, hv⟩ he
      have hi : i < 64 := BitVec.lt_of_getLsbD ha
      have hb : (asked &&& ~~~valid).getLsbD i = false := by rw [he]; simp
      rw [BitVec.getLsbD_and, BitVec.getLsbD_not, ha, hv] at hb
      simp [hi] at hb
  cases h : remapEntry s line with
  | none => simp [poisonedFor, dataState, h]
  | some e => cases hd : e.data <;> simp [poisonedFor, dataState, h, hd, outside]

/-- A slot is DEAD in the pool (R103). -/
theorem poolState_dead (s : State) (slot : Nat) : poolState s slot = .dead ↔ slot ∈ s.remap.dead := by
  simp only [poolState]
  split
  · simp_all
  · split <;> simp_all

/-- A slot is FREE while it is not DEAD and no entry names it (R103). -/
theorem poolState_free (s : State) (slot : Nat) :
    poolState s slot = .free ↔ slot ∉ s.remap.dead ∧ ∀ x ∈ s.remap.table, x.2.slot ≠ slot := by
  by_cases h : slot ∈ s.remap.dead
  · simp [poolState, h]
  · by_cases hf : ∃ x ∈ s.remap.table, x.2.slot = slot
    · simp [poolState, entryOfSlot, h, List.find?_isSome, hf]
      obtain ⟨x, hx, he⟩ := hf
      exact ⟨_, _, hx, he⟩
    · simp only [not_exists, not_and] at hf
      have none : s.remap.table.find? (fun p => p.2.slot == slot) = none := by simpa [List.find?_eq_none] using hf
      simp only [poolState, entryOfSlot, none]
      simpa [h] using hf

/-! ### The Array Scheduler -/

/-- The phase's say on an operation (R97). -/
theorem issuable_iff (s : State) (o : ArrayOp) :
    issuable s o = true ↔
      (s.metaCtl.phase = .loading ∧ ∃ l, o.purpose = .loadRead l)
        ∨ (s.metaCtl.phase = .formatting ∧ ∃ n, o.purpose = .formatProgram n)
        ∨ (s.metaCtl.phase = .readReady ∧ o.action = .read)
        ∨ s.metaCtl.phase = .repairing ∨ s.metaCtl.phase = .fullReady := by
  have read : (!o.isProgram) = true ↔ o.action = .read := by cases h : o.action <;> simp [ArrayOp.isProgram, h]
  cases hp : s.metaCtl.phase <;> cases ho : o.purpose <;> simp [issuable, hp, ho, ← read]

end Sys2Proof.Machine
end

