-- ==== Sys2Proof/Laws/PerInstr.lean ====
section
/-!
SUPPORT. Statements about every command as syntax, one lemma for each constructor.
`SoftwareCode`: a command that carries a command code is well-formed only with a code software can write for it, and the
code gives the command back (R173, R175).
-/

namespace Sys2Proof.Laws.SoftwareCode

/-- The rows that one command code names: every code's own row, and the rows of the codes that name no command or are
written while busy, which keep their code as operand. -/
def Statement (c : Instr) : Prop :=
  ∀ code, c.commandCode = some code → c.wellFormed = true →
    (∃ maintEn, commandOfCode maintEn code = c) ∨ c = .commandWriteWhileBusy code

theorem transactionTake (port : Port) (tx : Transaction) : Statement (.transactionTake port tx) := by
  intro k hk
  cases (hk : none = some k)

theorem intake (port : Port) : Statement (.intake port) := by
  intro k hk
  cases (hk : none = some k)

theorem responseSend (port : Port) : Statement (.responseSend port) := by
  intro k hk
  cases (hk : none = some k)

theorem srstAssert : Statement (.srstAssert) := by
  intro k hk
  cases (hk : none = some k)

theorem srstRelease : Statement (.srstRelease) := by
  intro k hk
  cases (hk : none = some k)

theorem resetDrainWaitClose : Statement (.resetDrainWaitClose) := by
  intro k hk
  cases (hk : none = some k)

theorem porstAssert : Statement (.porstAssert) := by
  intro k hk
  cases (hk : none = some k)

theorem porstRelease (geom : BitVec 2) : Statement (.porstRelease geom) := by
  intro k hk
  cases (hk : none = some k)

theorem pwarnAssert : Statement (.pwarnAssert) := by
  intro k hk
  cases (hk : none = some k)

theorem pwarnRelease : Statement (.pwarnRelease) := by
  intro k hk
  cases (hk : none = some k)

theorem agntAssert : Statement (.agntAssert) := by
  intro k hk
  cases (hk : none = some k)

theorem agntWithdraw : Statement (.agntWithdraw) := by
  intro k hk
  cases (hk : none = some k)

theorem grantWaitExpiry : Statement (.grantWaitExpiry) := by
  intro k hk
  cases (hk : none = some k)

theorem settleTimerExpiry : Statement (.settleTimerExpiry) := by
  intro k hk
  cases (hk : none = some k)

theorem patrolTimerExpiry : Statement (.patrolTimerExpiry) := by
  intro k hk
  cases (hk : none = some k)

theorem arrayIssue : Statement (.arrayIssue) := by
  intro k hk
  cases (hk : none = some k)

theorem systemReadComplete (ecc : Ecc) (data : LineData) : Statement (.systemReadComplete ecc data) := by
  intro k hk
  cases (hk : none = some k)

theorem mergeReadComplete (ecc : Ecc) (data : LineData) : Statement (.mergeReadComplete ecc data) := by
  intro k hk
  cases (hk : none = some k)

theorem drainProgramComplete (ok : Bool) : Statement (.drainProgramComplete ok) := by
  intro k hk
  cases (hk : none = some k)

theorem verifyReadComplete (ecc : Ecc) : Statement (.verifyReadComplete ecc) := by
  intro k hk
  cases (hk : none = some k)

theorem spareProgramComplete (ok : Bool) : Statement (.spareProgramComplete ok) := by
  intro k hk
  cases (hk : none = some k)

theorem imageProgramComplete (ok : Bool) : Statement (.imageProgramComplete ok) := by
  intro k hk
  cases (hk : none = some k)

theorem settingsProgramComplete (ok : Bool) : Statement (.settingsProgramComplete ok) := by
  intro k hk
  cases (hk : none = some k)

theorem headerReadComplete (ecc : Ecc) (header : HeaderImage) : Statement (.headerReadComplete ecc header) := by
  intro k hk
  cases (hk : none = some k)

theorem imageReadComplete (ecc : Ecc) (records : List RawRecord) : Statement (.imageReadComplete ecc records) := by
  intro k hk
  cases (hk : none = some k)

theorem settingsReadComplete (ecc : Ecc) (classes : List RawClass) (regions : List RegionEntry) : Statement (.settingsReadComplete ecc classes regions) := by
  intro k hk
  cases (hk : none = some k)

theorem repairProgramComplete (ok : Bool) : Statement (.repairProgramComplete ok) := by
  intro k hk
  cases (hk : none = some k)

theorem formatProgramComplete (ok : Bool) : Statement (.formatProgramComplete ok) := by
  intro k hk
  cases (hk : none = some k)

theorem relocationSourceReadComplete (ecc : Ecc) (data : LineData) : Statement (.relocationSourceReadComplete ecc data) := by
  intro k hk
  cases (hk : none = some k)

theorem patrolReadComplete (ecc : Ecc) : Statement (.patrolReadComplete ecc) := by
  intro k hk
  cases (hk : none = some k)

theorem drainSelect : Statement (.drainSelect) := by
  intro k hk
  cases (hk : none = some k)

theorem claimGrant (line : Nat) : Statement (.claimGrant line) := by
  intro k hk
  cases (hk : none = some k)

theorem waitingWritePlace : Statement (.waitingWritePlace) := by
  intro k hk
  cases (hk : none = some k)

theorem throughWriteClaimRequest (port : Port) : Statement (.throughWriteClaimRequest port) := by
  intro k hk
  cases (hk : none = some k)

theorem relocationJobStart : Statement (.relocationJobStart) := by
  intro k hk
  cases (hk : none = some k)

theorem reassignServe : Statement (.reassignServe) := by
  intro k hk
  cases (hk : none = some k)

theorem mergeFailStorageServe : Statement (.mergeFailStorageServe) := by
  intro k hk
  cases (hk : none = some k)

theorem dataStateRecordingServe : Statement (.dataStateRecordingServe) := by
  intro k hk
  cases (hk : none = some k)

theorem noDataClaimRequest : Statement (.noDataClaimRequest) := by
  intro k hk
  cases (hk : none = some k)

theorem reserveWaitClose : Statement (.reserveWaitClose) := by
  intro k hk
  cases (hk : none = some k)

theorem drainAllComplete : Statement (.drainAllComplete) := by
  intro k hk
  cases (hk : none = some k)

theorem readLimits : Statement (.readLimits) := by
  intro k hk _
  cases Option.some.inj hk
  exact .inl ⟨false, rfl⟩

theorem setFence : Statement (.setFence) := by
  intro k hk _
  cases Option.some.inj hk
  exact .inl ⟨false, rfl⟩

theorem fenceLock : Statement (.fenceLock) := by
  intro k hk _
  cases Option.some.inj hk
  exact .inl ⟨false, rfl⟩

theorem fenceUnlock (maintEn : Bool) : Statement (.fenceUnlock maintEn) := by
  intro k hk _
  cases Option.some.inj hk
  exact .inl ⟨maintEn, rfl⟩

theorem fenceFreeze : Statement (.fenceFreeze) := by
  intro k hk _
  cases Option.some.inj hk
  exact .inl ⟨false, rfl⟩

theorem loadRegion : Statement (.loadRegion) := by
  intro k hk _
  cases Option.some.inj hk
  exact .inl ⟨false, rfl⟩

theorem loadClass : Statement (.loadClass) := by
  intro k hk _
  cases Option.some.inj hk
  exact .inl ⟨false, rfl⟩

theorem saveSettings : Statement (.saveSettings) := by
  intro k hk _
  cases Option.some.inj hk
  exact .inl ⟨false, rfl⟩

theorem loadRange : Statement (.loadRange) := by
  intro k hk _
  cases Option.some.inj hk
  exact .inl ⟨false, rfl⟩

theorem loadTarget : Statement (.loadTarget) := by
  intro k hk _
  cases Option.some.inj hk
  exact .inl ⟨false, rfl⟩

theorem sequenceSet : Statement (.sequenceSet) := by
  intro k hk _
  cases Option.some.inj hk
  exact .inl ⟨false, rfl⟩

theorem sequenceArm : Statement (.sequenceArm) := by
  intro k hk _
  cases Option.some.inj hk
  exact .inl ⟨false, rfl⟩

theorem sequenceDisarm : Statement (.sequenceDisarm) := by
  intro k hk _
  cases Option.some.inj hk
  exact .inl ⟨false, rfl⟩

theorem drainAll : Statement (.drainAll) := by
  intro k hk _
  cases Option.some.inj hk
  exact .inl ⟨false, rfl⟩

theorem setReserve : Statement (.setReserve) := by
  intro k hk _
  cases Option.some.inj hk
  exact .inl ⟨false, rfl⟩

theorem retireLine : Statement (.retireLine) := by
  intro k hk _
  cases Option.some.inj hk
  exact .inl ⟨false, rfl⟩

theorem readRemap : Statement (.readRemap) := by
  intro k hk _
  cases Option.some.inj hk
  exact .inl ⟨false, rfl⟩

theorem readSlot : Statement (.readSlot) := by
  intro k hk _
  cases Option.some.inj hk
  exact .inl ⟨false, rfl⟩

theorem readCandidate : Statement (.readCandidate) := by
  intro k hk _
  cases Option.some.inj hk
  exact .inl ⟨false, rfl⟩

theorem patrolStart : Statement (.patrolStart) := by
  intro k hk _
  cases Option.some.inj hk
  exact .inl ⟨false, rfl⟩

theorem patrolStop : Statement (.patrolStop) := by
  intro k hk _
  cases Option.some.inj hk
  exact .inl ⟨false, rfl⟩

theorem patrolStatus : Statement (.patrolStatus) := by
  intro k hk _
  cases Option.some.inj hk
  exact .inl ⟨false, rfl⟩

theorem setGrantLimit : Statement (.setGrantLimit) := by
  intro k hk _
  cases Option.some.inj hk
  exact .inl ⟨false, rfl⟩

theorem formatArray : Statement (.formatArray) := by
  intro k hk _
  cases Option.some.inj hk
  exact .inl ⟨false, rfl⟩

theorem cancel : Statement (.cancel) := by
  intro k hk _
  cases Option.some.inj hk
  exact .inl ⟨false, rfl⟩

theorem unknownCommand (code : BitVec 8) : Statement (.unknownCommand code) := by
  intro k hk hw
  cases Option.some.inj hk
  left
  refine ⟨false, ?_⟩
  revert hw
  revert code
  decide

theorem flagsWrite (group : Group) (value : Word) : Statement (.flagsWrite group value) := by
  intro k hk
  cases (hk : none = some k)

theorem enablesWrite (group : Group) (value : Word) : Statement (.enablesWrite group value) := by
  intro k hk
  cases (hk : none = some k)

theorem groupEnableWrite (value : Word) : Statement (.groupEnableWrite value) := by
  intro k hk
  cases (hk : none = some k)

theorem incidentPop (value : Word) : Statement (.incidentPop value) := by
  intro k hk
  cases (hk : none = some k)

theorem watchHitsWrite (value : Word) : Statement (.watchHitsWrite value) := by
  intro k hk
  cases (hk : none = some k)

theorem registerWrite (index : BitVec 7) (value : Word) : Statement (.registerWrite index value) := by
  intro k hk
  cases (hk : none = some k)

theorem commandWriteWhileBusy (code : BitVec 8) : Statement (.commandWriteWhileBusy code) := by
  intro k hk _
  cases Option.some.inj hk
  exact .inr rfl

end Sys2Proof.Laws.SoftwareCode
end

