-- ==== Sys2Proof/Laws/Settle.lean ====
section
/-!
SUPPORT. What follows an event: the end of READ_READY and the grant wait timer (R87, R166, R167), the thresholds of the
free count (R104), and what an operation keeps at its issue (R82).
-/

namespace Sys2Proof.Machine

/-- The grant wait timer keeps its time or is stopped, and nothing else changes (R87). -/
theorem stopGrantTimer_eq (s : State) :
    stopGrantTimer s =
      { s with link := { s.link with waitTicks := if grantWait s then s.link.waitTicks else 0 } } := by
  simp only [stopGrantTimer]
  split <;> rfl

/-- Entry to REPAIRING with an empty repair list goes on to FULL_READY (R167). -/
theorem enterRepairing_nil {s : State} (h : s.metaCtl.repair = []) :
    enterRepairing s =
      { s with
        metaCtl := { phase := .fullReady, repair := [], settleTicks := none }
        events := (s.events.post .phaseChange).post .phaseChange } := by
  simp [enterRepairing, advanceRepair, setPhase, post, h]

/-- Entry to REPAIRING with a line on the list places its program, unless a repair program is outstanding (R167). -/
theorem enterRepairing_cons {s : State} {l : MetaLine} {rest : List MetaLine} (h : s.metaCtl.repair = l :: rest) :
    enterRepairing s =
      let t : State :=
        { s with
          metaCtl := { s.metaCtl with phase := .repairing, settleTicks := none }
          events := s.events.post .phaseChange }
      if repairOutstanding s then t else requestMeta l .repair t := by
  simp [enterRepairing, advanceRepair, setPhase, post, h, repairOutstanding]

/-- Settling ends READ_READY where it must, and then judges the grant wait (R87, R166). -/
theorem settle_eq (s : State) :
    settle s = stopGrantTimer (if s.metaCtl.phase = .readReady ∧ repairTrigger s = true then enterRepairing s else s) := rfl

/-- The free count as the pool stands (R103). -/
theorem freeCount_congr {s t : State} (hd : t.remap.dead = s.remap.dead) (ht : t.remap.table = s.remap.table) :
    freeCount t = freeCount s := by
  simp [freeCount, hd, ht]

/-- A fall of the free count posts SPARES_LOW from 65 to 64, SPARES_EXHAUSTED from 1 to 0, and nothing else (R104). -/
theorem postThresholds_eq (before : Nat) (s : State) :
    postThresholds before s =
      { s with
        events :=
          if before = 65 ∧ freeCount s = 64 then s.events.post .sparesLow
          else if before = 1 ∧ freeCount s = 0 then s.events.post .sparesExhausted
          else s.events } := by
  simp only [postThresholds]
  by_cases h : before = 65 ∧ freeCount s = 64
  · simp [h, post]
  · by_cases h' : before = 1 ∧ freeCount s = 0 <;> simp [h, h', post]

/-- An operation keeps its purpose, and its place in its kind, at its issue (R82). -/
theorem atIssue_keeps (s : State) (o : ArrayOp) :
    (atIssue s o).purpose = o.purpose ∧ (atIssue s o).first = o.first ∧ (atIssue s o).issued = true := by
  obtain ⟨p, a, act, first, issued⟩ := o
  cases p <;> cases act <;> simp [atIssue]

end Sys2Proof.Machine
end

