-- ==== Sys2Proof/Laws/Withdraw.lean ====
section
/-!
SUPPORT. What leaves the scheduler when reads and through-writes are withdrawn (R6, R14, R89, R94): `Withdrawn` is built up
one withdrawal at a time, and what SRST, PWARN and the grant wait expiry withdraw is said once.
-/

namespace Sys2Proof.Machine

/-- A release or withdrawal, read at any line (R94). -/
theorem claimRecord_dropClaim_at (line other : Nat) (o : Claimant) (s : State) :
    claimRecord (dropClaim line o s) other =
      if line = other then withoutClaimant o (claimRecord s other) else claimRecord s other := by
  split
  · rename_i h
    subst h
    exact claimRecord_dropClaim line o s
  · rename_i h
    exact claimRecord_setClaims_ne _ _ (Ne.symm h)

/-- A withdrawal of nothing. -/
theorem Withdrawn.refl (s : State) : Withdrawn [] [] s s :=
  ⟨(List.filter_eq_self.mpr fun _ _ => rfl).symm, fun _ => rfl⟩

/-- A change that leaves the pending work and the claims alone. -/
theorem Withdrawn.same {reads : List SystemRead} {throughs : List ThroughWrite} {s t u : State}
    (h : Withdrawn reads throughs s t) (hw : u.link.work = t.link.work) (hc : u.link.claims = t.link.claims) :
    Withdrawn reads throughs s u := by
  refine ⟨by rw [hw, h.1], fun line => ?_⟩
  rw [← h.2]
  simp [claimRecord, hc]

/-- One more read is withdrawn. -/
theorem Withdrawn.read {reads : List SystemRead} {s t : State} (h : Withdrawn reads [] s t) (r : SystemRead) :
    Withdrawn (reads ++ [r]) [] s (withdrawRead r t) := by
  constructor
  · change (t.link.work.filter fun o => !decide (o.purpose = .systemRead r.serial)) = _
    rw [h.1, List.filter_filter]
    exact List.filter_congr fun o _ => by simp [ownedBy, Bool.and_comm]
  · intro line
    rw [withdrawRead, endRead, claimRecord_dropClaim_at]
    change (if r.line = line then withoutClaimant _ (claimRecord t line) else claimRecord t line) = _
    rw [h.2]
    by_cases e : r.line = line <;> simp [leaving, withoutClaimants, List.filter_append, e]

/-- One more through-write is withdrawn. -/
theorem Withdrawn.through {reads : List SystemRead} {throughs : List ThroughWrite} {s t : State}
    (h : Withdrawn reads throughs s t) (w : ThroughWrite) :
    Withdrawn reads (throughs ++ [w]) s (withdrawThrough w t) := by
  constructor
  · change (t.link.work.filter fun o => !decide (o.purpose.writer = some (.through w.serial))) = _
    rw [h.1, List.filter_filter]
    exact List.filter_congr fun o _ => by simp [ownedBy, Bool.and_comm, Bool.and_left_comm]
  · intro line
    rw [withdrawThrough, dropThrough, claimRecord_dropClaim_at]
    change (if w.course.line = line then withoutClaimant _ (claimRecord t line) else claimRecord t line) = _
    rw [h.2]
    by_cases e : w.course.line = line <;> simp [leaving, withoutClaimants, List.filter_append, e]

/-- Withdrawing some of a list of reads, in its order; `same` is what the steps keep. -/
theorem Withdrawn.reads_foldl (same : State → Prop) (gone : SystemRead → Bool) (f : SystemRead → State → State)
    {s : State}
    (step : ∀ r reads t, same t → Withdrawn reads [] s t →
      same (f r t) ∧ Withdrawn (reads ++ if gone r then [r] else []) [] s (f r t))
    (l reads : List SystemRead) (t : State) (hs : same t) (h : Withdrawn reads [] s t) :
    same (l.foldl (fun v r => f r v) t)
      ∧ Withdrawn (reads ++ l.filter gone) [] s (l.foldl (fun v r => f r v) t) := by
  induction l generalizing reads t with
  | nil => exact ⟨hs, by simpa using h⟩
  | cons r l ih =>
    obtain ⟨h1, h2⟩ := step r reads t hs h
    have := ih _ (f r t) h1 h2
    cases hr : gone r <;> simpa [hr] using this

/-- Withdrawing some of a list of through-writes, in its order. -/
theorem Withdrawn.throughs_foldl (gone : ThroughWrite → Bool) (f : ThroughWrite → State → State)
    {reads : List SystemRead} {s : State}
    (step : ∀ w throughs t, Withdrawn reads throughs s t →
      Withdrawn reads (throughs ++ if gone w then [w] else []) s (f w t))
    (l throughs : List ThroughWrite) (t : State) (h : Withdrawn reads throughs s t) :
    Withdrawn reads (throughs ++ l.filter gone) s (l.foldl (fun v w => f w v) t) := by
  induction l generalizing throughs t with
  | nil => simpa using h
  | cons w l ih =>
    have := ih _ (f w t) (step w throughs t h)
    cases hr : gone w <;> simpa [hr] using this

/-- SRST withdraws the reads whose array read is not in flight (R6). -/
theorem srstReads_withdrawn (s : State) :
    Withdrawn (s.path.reads.filter fun r => !readInFlight s r) [] s
      (s.path.reads.foldl (fun t r => srstRead r t) s) := by
  refine (Withdrawn.reads_foldl (fun t => t.link.inFlight = s.link.inFlight) (fun r => !readInFlight s r) srstRead ?_
    s.path.reads [] s rfl (.refl s)).2
  intro r reads t hf h
  have e : readInFlight t r = readInFlight s r := by simp [readInFlight, hf]
  simp only [srstRead, e]
  cases readInFlight s r
  · exact ⟨hf, by simpa using h.read r⟩
  · refine ⟨hf, ?_⟩
    simp only [Bool.not_true, Bool.false_eq_true, if_true, if_false, List.append_nil]
    exact h.same rfl rfl

/-- SRST withdraws the through-writes with no operation issued (R6, R99). -/
theorem srstThroughs_withdrawn {reads : List SystemRead} {s t : State} (h : Withdrawn reads [] s t)
    (l : List ThroughWrite) :
    Withdrawn reads (l.filter fun w => !w.issued) s (l.foldl (fun v w => srstThrough w v) t) := by
  refine Withdrawn.throughs_foldl (fun w => !w.issued) srstThrough ?_ l [] t h
  intro w throughs v h
  simp only [srstThrough]
  cases w.issued
  · simpa using (h.same (u := withdrawRequests (.through w.serial) v) rfl rfl).through w
  · simpa using h.same (u := orphanThrough w v) rfl rfl

/-- Answering a through-write touches neither the work nor the claims. -/
theorem answerThrough_link (w : ThroughWrite) (code : ResponseCode) (s : State) :
    (answerThrough w code s).link = s.link := by
  simp only [answerThrough, answer, setStand, setQueue]
  repeat' split
  all_goals rfl

/-- PWARN withdraws the through-writes that have not reached the array (R14). -/
theorem warnThroughs_withdrawn (s : State) (l : List ThroughWrite) :
    Withdrawn [] (l.filter fun w => !w.reached) s (l.foldl (fun v w => warnThrough w v) s) := by
  refine Withdrawn.throughs_foldl (fun w => !w.reached) warnThrough ?_ l [] s (.refl s)
  intro w throughs v h
  have e := answerThrough_link w .retry v
  have gone := (h.same (u := answerThrough w .retry v) (by rw [e]) (by rw [e])).through w
  by_cases r : (w.issued || w.listed) = true
  · simpa [warnThrough, ThroughWrite.reached, r] using h
  · simpa [warnThrough, ThroughWrite.reached, r] using gone

/-- The expiry withdraws the through-writes that a master waits on and that have begun no reassign (R74, R89). -/
theorem expireThroughs_withdrawn {reads : List SystemRead} {s t : State} (h : Withdrawn reads [] s t)
    (l : List ThroughWrite) :
    Withdrawn reads (l.filter fun w => w.port.isSome && !w.listed) s (l.foldl (fun v w => expireThrough w v) t) := by
  refine Withdrawn.throughs_foldl (fun w => w.port.isSome && !w.listed) expireThrough ?_ l [] t h
  intro w throughs v h
  have e := answerThrough_link w .unavailable v
  cases hp : w.port with
  | none => simpa [expireThrough, hp] using h
  | some p =>
    cases hl : w.listed
    · simpa [expireThrough, hp, hl] using (h.same (by rw [e]) (by rw [e])).through w
    · simpa [expireThrough, hp, hl] using
        h.same (u := orphanThrough w (answerThrough w .unavailable v)) (by rw [← e]; rfl) (by rw [← e]; rfl)

end Sys2Proof.Machine
end

