-- ==== Sys2Proof/Tests/Slice0.lean ====
section
/-!
SUPPORT. The model's own tests: the ill-formed commands that the check refuses, write frames spelled out, small steps, and
for each statement with hypotheses a state that meets them.
-/

namespace Sys2Proof.Tests
open Sys2Proof Sys2Proof.Machine

/-! ### Small states -/

/-- A part in FULL_READY with the image loaded and AGNT asserted. -/
def base : State :=
  { State.reset with
    pins := { State.reset.pins with agnt := true }
    metaCtl := { phase := .fullReady, repair := [], settleTicks := none }
    link := { State.reset.link with work := [] }
    remap := { State.reset.remap with loaded := true } }

/-- The same part in another phase. -/
def inPhase (p : Phase) : State := { base with metaCtl := { base.metaCtl with phase := p } }

/-- A transaction of port A at intake. -/
def queued (tx : Transaction) (stand : Stand := .taken) : Taken := { serial := 0, tx := tx, stand := stand }

/-- A part with one transaction at port A's intake. -/
def asking (tx : Transaction) : State := { base with path := { base.path with queueA := [queued tx], serial := 1 } }

/-- A read of `size` bytes. -/
def readOfSize (addr : Word) (size : Nat) : Transaction := { kind := .read, addr := addr, size := size, data := [] }

/-- A write of bytes 0xAA. -/
def writeOfSize (addr : Word) (size : Nat) : Transaction :=
  { kind := .write, addr := addr, size := size, data := List.replicate size 0xAA#8 }

/-- A system entry of line 5. -/
def entry (st : EntryState) : SystemEntry :=
  { line := 5, mask := spanMask 0 4, data := zeroLine, state := st, firstWriter := .a, target := false }

/-- A part with entries in the buffer. -/
def holding (es : List SystemEntry) : State := { base with buffer := { base.buffer with entries := es } }

/-- The course of the drain of line 5. -/
def course (view : DataState) : Course :=
  { line := 5, mask := spanMask 0 4, bytes := zeroLine, mapped := 5, view := view, drainLine := zeroLine
    known := spanMask 0 4 }

/-- A part with a drain of line 5 in progress and an operation of it in flight. -/
def draining (view : DataState) (purpose : Purpose) : State :=
  { base with
    buffer := { base.buffer with entries := [entry .draining], drain := some (course view) }
    link :=
      { base.link with
        inFlight := some { plainRead purpose 5 with issued := true }
        claims := [(5, { holders := .exclusive .drain, waiting := [] })] } }

/-- A part with an operation in flight. -/
def flying (purpose : Purpose) (s : State) : State :=
  { s with link := { s.link with inFlight := some { plainRead purpose 0 with issued := true } } }

/-- A part with a work list. -/
def serving (v : Option Serving) (rs : List Request) (s : State) : State :=
  { s with remap := { s.remap with workList := rs, serving := v } }

/-- A part with the parameters PARAM0 to PARAM4 written. -/
def withParams (p0 p1 p2 p3 p4 : Word) (s : State) : State :=
  { s with mgmt := { s.mgmt with params := [p0, p1, p2, p3, p4, 0, 0, 0] } }

/-- A part with the metadata fault. -/
def faulty (s : State) : State := { s with remap := { s.remap with fault := true } }

/-- A part with its map lock in a state. -/
def lockedAs (l : LockState) (n : Nat) (s : State) : State := { s with fence := { s.fence with lock := l, refusals := n } }

/-- A part with a command in progress. -/
def busyWith (b : InProgress) (s : State) : State := { s with mgmt := { s.mgmt with busy := some b } }

/-- A part with a remap entry of line 5 in slot 0. -/
def remapped (d : DataState) (s : State) : State :=
  { s with
    remap := { s.remap with table := [(5, { slot := 0, data := d, origin := .relocated, generation := 0#8 })] } }

/-- A part with `n` relocation jobs in flight. -/
def jobsOf (n : Nat) : State :=
  { base with
    health :=
      { base.health with
        jobs :=
          (List.range n).map fun k => { line := k + 300, reason := .readCorrected, known := Mask.full, staged := none } } }

/-- The state a command leads to. -/
def after (c : Instr) (s : State) : State :=
  match exec c s with
  | .next t => t
  | .fault _ => s
  | .refused _ => s

/-! ### Ill-formed commands -/

theorem test_wellFormed_transaction :
    (Instr.transactionTake .a { kind := .write, addr := 0, size := 2, data := [0] }).wellFormed = false
      ∧ (Instr.transactionTake .a { kind := .read, addr := 0, size := 2, data := [0] }).wellFormed = false
      ∧ (Instr.transactionTake .a (writeOfSize 0 2)).wellFormed = true := by decide

theorem test_wellFormed_ecc :
    (Instr.verifyReadComplete (.corrected 0)).wellFormed = false
      ∧ (Instr.patrolReadComplete (.corrected 9)).wellFormed = false
      ∧ (Instr.headerReadComplete (.corrected 9) { marker := true, geom := 0, stored := 1, lockAtStart := false, retain := false }).wellFormed = false
      ∧ (Instr.patrolReadComplete (.corrected 8)).wellFormed = true := by decide

theorem test_wellFormed_line :
    (Instr.systemReadComplete .clean []).wellFormed = false
      ∧ (Instr.mergeReadComplete .clean [0]).wellFormed = false
      ∧ (Instr.relocationSourceReadComplete .clean (List.replicate 63 0)).wellFormed = false
      ∧ (Instr.systemReadComplete .clean zeroLine).wellFormed = true := by decide

theorem test_wellFormed_records :
    (Instr.imageReadComplete .clean []).wellFormed = false
      ∧ (Instr.settingsReadComplete .clean [] (List.replicate 4 regionDefault)).wellFormed = false
      ∧ (Instr.settingsReadComplete .clean (List.replicate 4 { mode := none, patrol := none, threshold := none }) []).wellFormed
          = false := by decide

theorem test_wellFormed_codes :
    (Instr.unknownCommand 0x19#8).wellFormed = false ∧ (Instr.unknownCommand 0x1A#8).wellFormed = true
      ∧ (Instr.commandWriteWhileBusy 0x19#8).wellFormed = false
      ∧ (Instr.registerWrite 0x02#7 0).wellFormed = false ∧ (Instr.registerWrite 0x16#7 0).wellFormed = false
      ∧ (Instr.registerWrite 0x04#7 0).wellFormed = true := by decide

/-! ### Write frames, byte by byte (R169, R171, R175) -/

theorem test_frame_command : writeFrame false true [0x82, 0x00, 0x00, 0x00, 0x04] = some (.fenceUnlock true) := by decide

theorem test_frame_parameter :
    writeFrame false false [0x84, 0x01, 0x02, 0x03, 0x04] = some (.registerWrite 0x04#7 0x01020304#32) := by decide

theorem test_frame_busy : writeFrame true false [0x82, 0x00, 0x00, 0x00, 0x01] = some (.commandWriteWhileBusy 0x01#8)
    ∧ writeFrame true false [0x82, 0x00, 0x00, 0x00, 0x19] = some .cancel := by decide

theorem test_frame_flags : writeFrame false false [0x98, 0x00, 0x00, 0x00, 0x03] = some (.flagsWrite .media 3#32)
    ∧ writeFrame false false [0x18, 0x00, 0x00, 0x00, 0x03] = none := by decide

theorem test_no_table_word : decodeTableWord 32 0x12345678 = none := by decide

/-! ### Small steps -/

theorem test_reset_status : readRegister State.reset 0x01#7 = 0x18800000#32 ∧ statusByte State.reset = 0x21#8 := by decide

theorem test_ident : readRegister State.reset 0x00#7 = 0x41200100#32 := by decide

theorem test_tick_counts : (tick (inPhase .fullReady)).link.waitTicks = 0
    ∧ (tick { (flying (.patrolRead 0) base) with pins := State.reset.pins }).link.waitTicks = 0 := by decide

theorem test_pwarn_retries_a_waiting_write :
    (after .pwarnAssert
        { asking (writeOfSize 0 1) with
          path := { base.path with queueA := [queued (writeOfSize 0 1) .waiting] }
          buffer := { base.buffer with waiting := [{ port := .a, serial := 0, line := 0, mask := 1#64, data := zeroLine }] } }).path.queueA
      = [queued (writeOfSize 0 1) (.decided { code := .retry, data := [] })] := by decide

theorem test_agnt_withdraw_abandons :
    (after .agntWithdraw (flying (.patrolRead 0) base)).link.work = [{ plainRead (.patrolRead 0) 0 with issued := true }]
      ∧ (after .agntWithdraw (flying (.patrolRead 0) base)).link.inFlight = none := by decide

theorem test_read_places_its_array_read :
    (after (.intake .a) (asking (readOfSize 320 4))).link.work = [plainRead (.systemRead 0) 5] := by decide

theorem test_write_makes_an_entry :
    ((after (.intake .a) (asking (writeOfSize 320 4))).buffer.entries.map fun e => (e.line, e.mask, e.state))
      = [(5, 0xF#64, .pending)] := by decide

theorem test_malformed_at_63 :
    (after (.intake .a) (asking (readOfSize 63 2))).path.queueA
      = [queued (readOfSize 63 2) (.decided { code := .malformed, data := [0, 0] })] := by decide

theorem test_drain_takes_its_claim :
    (after .drainSelect (holding [entry .pending])).link.claims = [(5, { holders := .exclusive .drain, waiting := [] })]
      ∧ (after .drainSelect (holding [entry .pending])).link.work = [{ plainRead (.mergeRead .drain) 5 with first := true }] := by
  decide

theorem test_merge_then_program :
    ((after (.mergeReadComplete .clean zeroLine) (draining .intact (.mergeRead .drain))).link.work.map (·.purpose))
      = [.mappedProgram .drain] := by decide

theorem test_program_ok_ends_the_drain :
    (after (.drainProgramComplete true) (draining .intact (.mappedProgram .drain))).buffer.entries = []
      ∧ (after (.drainProgramComplete true) (draining .intact (.mappedProgram .drain))).link.claims = [] := by decide

theorem test_program_fail_asks_for_a_reassign :
    (after (.drainProgramComplete false) (draining .intact (.mappedProgram .drain))).remap.workList
      = [.reassign (.writer .drain) 5 zeroLine (spanMask 0 4) .programFail] := by decide

theorem test_unclean_verify_reassigns :
    ((after (.verifyReadComplete (.corrected 1)) (draining .intact (.verifyRead .drain))).remap.workList.map (·.writer))
      = [some .drain] := by decide

theorem test_claim_is_granted :
    (after (.claimGrant 5)
        { base with
          remap := { base.remap with noData := [{ line := 5, origin := .candidateOverflow }], noDataAsked := true }
          link :=
            { base.link with
              claims := [(5, { holders := .shared [], waiting := [{ kind := .exclusive, owner := .noData }] })] } }).remap.workList
      = [.noData 5 .candidateOverflow] := by decide

theorem test_no_data_asks :
    (after .noDataClaimRequest
        { base with remap := { base.remap with noData := [{ line := 5, origin := .candidateOverflow }] } }).remap.workList
      = [.noData 5 .candidateOverflow] := by decide

theorem test_job_starts :
    (after .relocationJobStart
        { base with health := { base.health with queue := [{ line := 5, reason := .readCorrected }] } }).link.work
      = [{ plainRead (.jobRead 5) 5 with first := true }] := by decide

theorem test_reserve_waits :
    (after .setReserve (withParams 4 0 0 0 0 (holding (List.replicate 30 (entry .pending))))).mgmt.busy
      = some (.reserve 4) := by decide

theorem test_cancel_ends_the_wait :
    (after .cancel (busyWith (.reserve 4) base)).mgmt.result = 0x08#8
      ∧ (after .cancel (busyWith (.reserve 4) base)).mgmt.busy = none := by decide

theorem test_fifth_refusal_expires :
    (after (.fenceUnlock false) (lockedAs .locked 4 base)).fence.lock = .expired := by decide

theorem test_set_fence_volatile :
    (after .setFence (withParams 1000 0 0 0 0 base)).fence.current = 1000
      ∧ (after .setFence (withParams 1000 0 0 0 0 base)).fence.stored = 1043450 := by decide

theorem test_retire_queues_a_job :
    (after .retireLine (withParams 5 0 0 0 0 base)).health.queue = [{ line := 5, reason := .retireCommand }] := by decide

theorem test_patrol_reads_the_cursor :
    (after .patrolTimerExpiry
        { base with
          health := { base.health with patrol := { base.health.patrol with mode := .continuous, ticks := 100 } } }).link.work
      = [plainRead (.patrolRead 0) 0] := by decide

theorem test_spare_fail_kills_the_slot :
    (after (.spareProgramComplete false)
        (flying .spareProgram (serving (some (.spare 0)) [.reassign (.job 5) 5 zeroLine Mask.full .relocated] base))).remap.dead
      = [0] := by decide

theorem test_entry_goes_live :
    (after (.imageProgramComplete true)
        (flying (.metaProgram (.image 0) [.remap])
          (serving (some (.inUse 0)) [.noData 5 .candidateOverflow] base))).remap.table
      = [(5, { slot := 0, data := .poisoned, origin := .candidateOverflow, generation := 0#8 })] := by decide

theorem test_header_locks :
    (after (.headerReadComplete .clean { marker := true, geom := 0, stored := 0, lockAtStart := true, retain := false })
        (flying (.loadRead (.settings 0)) (inPhase .loading))).fence.lock = .locked := by decide

theorem test_image_line_is_taken :
    (after (.imageReadComplete .uncorrectable [])
        (flying (.loadRead (.image 0)) (inPhase .loading))).remap.dead = [0, 1, 2, 3] := by decide

theorem test_last_settings_line_enters_read_ready :
    (after (.settingsReadComplete .uncorrectable [] []) (flying (.loadRead (.settings 5)) (inPhase .loading))).metaCtl
      = { phase := .readReady, repair := [.settings 5], settleTicks := some 0 } := by decide

theorem test_format_begins :
    (after .formatArray (inPhase .unformatted)).metaCtl.phase = .formatting
      ∧ ((after .formatArray (inPhase .unformatted)).link.work.map (·.arrayLine)) = [1043450 + 4096] := by decide

theorem test_format_ends :
    (after (.formatProgramComplete true)
        (flying (.formatProgram 1029) (busyWith .format (inPhase .formatting)))).metaCtl.phase = .loading := by decide

/-- A part with a through-write of a POISONED line 5 that asked for its merge-fail storage and has issued nothing, in
front of another writer's recording. -/
def storing (v : Option Serving) : State :=
  { base with
    path :=
      { base.path with
        throughs :=
          [{ serial := 0, port := some .a, stage := .course, course := course .poisoned, issued := false, listed := true }] }
    link :=
      { base.link with
        work := [plainRead (.storageProgram (.through 0)) 5]
        claims := [(5, { holders := .exclusive (.through 0), waiting := [] })] }
    remap :=
      { base.remap with workList := [.storage (.through 0) 5 zeroLine 1#64, .recording .drain 6 1#64], serving := v } }

theorem test_srst_withdraws_what_has_issued_nothing :
    (after .srstAssert (storing (some .storage))).path.throughs = []
      ∧ (after .srstAssert (storing (some .storage))).link.work = []
      ∧ (after .srstAssert (storing (some .storage))).link.claims = []
      ∧ (after .srstAssert (storing (some .storage))).remap.workList = [.recording .drain 6 1#64]
      ∧ (after .srstAssert (storing (some .storage))).remap.serving = none := by decide

theorem test_srst_leaves_the_read_in_flight :
    (after .srstAssert
        (flying (.systemRead 0)
          { base with
            path :=
              { base.path with
                reads :=
                  [{ serial := 0, port := .a, line := 5, offset := 0, size := 4, covered := Mask.empty
                     snapshot := zeroLine, answered := true }] } })).path.reads.map (·.answered) = [false] := by decide

theorem test_no_offer_of_a_line_in_a_job :
    (offer 5 .read
        { base with
          health :=
            { base.health with
              jobs := [{ line := 5, reason := .readCorrected, known := Mask.full, staged := none }] } }).health.candidates
      = [] := by decide

theorem test_miso_bytes :
    (List.range 7).map (misoByte base base base 0x00#8)
        = [some (statusByte base), some 0x41#8, some 0x20#8, some 0x01#8, some 0x00#8, some 0#8, some 0#8]
      ∧ (List.range 6).map (misoByte base base base 0x84#8)
        = [some (statusByte base), none, none, none, none, some 0#8] := by decide

/-! ### States that meet the hypotheses of the statements

One theorem for each statement that has hypotheses, a part of it for each clause, at boundary values of the ranges. -/

/-- The purpose in flight, as a test. -/
theorem due_of (s : State) (p : Purpose)
    (h : s.pins.porst = false ∧ s.link.inFlight.map (·.purpose) = some p) : dueFor s p := by
  obtain ⟨hp, ho⟩ := h
  cases hf : s.link.inFlight with
  | none => rw [hf] at ho; cases ho
  | some o => rw [hf] at ho; exact ⟨hp, o, hf, Option.some.inj ho⟩

/-- The part under PORST. -/
def underPorst : State := { base with pins := { base.pins with porst := true } }

/-- The part with other pins. -/
def pinned (srst pwarn agnt : Bool) (s : State) : State :=
  { s with pins := { s.pins with srst := srst, pwarn := pwarn, agnt := agnt } }

/-- The part with a patrol. -/
def patrolling (mode : PatrolMode) (cursor : Nat) (outstanding : Option Nat) (s : State) : State :=
  { s with
    health :=
      { s.health with
        patrol := { s.health.patrol with mode := mode, cursor := cursor, ticks := 100, outstanding := outstanding } } }

theorem witness_EmptyQueueLetsATickPass :
    (base.pending = [] ∧ base.pins.porst = false ∧ base.health.patrol.mode = .stopped)
      ∧ (underPorst.pending = [] ∧ underPorst.pins.porst = true)
      ∧ (patrolling .continuous 0 none base).pending = [] ∧ (patrolling .continuous 0 none base).pins.porst = false
      ∧ (patrolling .continuous 0 none base).health.patrol.mode ≠ .stopped := by decide

theorem witness_PorstReleaseSamplesGeom : underPorst.pins.porst = true ∧ (0#2 ≠ 3#2 ∧ 2#2 ≠ 3#2) := by decide

theorem witness_PorstAssertEndsAllWork : base.pins.porst = false ∧ underPorst.pins.porst = true := by decide

/-- A part with `n` incidents. -/
def withIncidents (n : Nat) : State :=
  { base with
    events :=
      { base.events with
        incidents := List.replicate n { kind := .dataLoss, line := none, port := none, detail := none, index := none } } }

theorem witness_PostedCausesSetEnabledFlags :
    (withIncidents 15).events.incidents.length < 16 ∧ 16 ≤ (withIncidents 16).events.incidents.length := by decide

theorem witness_WrittenOnesClearFlagsAndHits :
    base.pins.porst = false ∧ base.watch.ranges[7]? = some RangeWatch.cleared := by decide

theorem witness_EnablesWritePlacesEnables :
    base.pins.porst = false ∧ eventsOk base = true
      ∧ eventsOk { base with events := { base.events with media := { flags := 1#32, enables := 3#32 } } } = true := by
  decide

theorem witness_AlertFollowsEnabledPendingGroups : eventsOk base = true ∧ base.pins.porst = false
    ∧ exec .drainSelect base = .next (after .drainSelect base) := ⟨by decide, by decide, rfl⟩

theorem witness_IncidentPopShowsTheOldestRecord :
    (base.pins.porst = false ∧ base.events.incidents = [] ∧ (withIncidents 1).pins.porst = false
      ∧ ∃ i, (withIncidents 1).events.incidents = i :: [])
      ∧ exec .drainSelect base = .next (after .drainSelect base) ∧ 7 < 8 :=
  ⟨⟨by decide, by decide, by decide, _, rfl⟩, rfl, by decide⟩

theorem witness_FramesWriteAndReadTheRegisters :
    let frame := fun b (i : Byte) (code : Byte) => writeFrame b false [i, 0, 0, 0, code]
    (base.pins.porst = false ∧ underPorst.pins.porst = true ∧ base.mgmt.params.length = 8)
      ∧ ((3#7).toNat < 4 ∧ 4 ≤ (4#7).toNat ∧ (11#7).toNat ≤ 11 ∧ 11 < (12#7).toNat)
      ∧ exec .drainSelect base = .next (after .drainSelect base)
      ∧ ((0x80#8).getLsbD 7 = true ∧ frame false 0x7F#8 0#8 = none ∧ writeFrame false false [0x84, 0, 0, 0] = none)
      ∧ (frame false 0x94#8 0#8 = some (.registerWrite 0x14#7 0#32) ∧ frame false 0x95#8 0#8 = some (.groupEnableWrite 0#32)
        ∧ frame false 0x9E#8 0#8 = some (.registerWrite 0x1E#7 0#32) ∧ frame false 0x9F#8 0#8 = some (.incidentPop 0#32)
        ∧ frame false 0xA0#8 0#8 = some (.registerWrite 0x20#7 0#32) ∧ frame false 0xA4#8 0#8 = some (.watchHitsWrite 0#32)
        ∧ frame false 0xA5#8 0#8 = some (.registerWrite 0x25#7 0#32))
      ∧ (frame false 0x82#8 0x00#8 = some (.unknownCommand 0x00#8) ∧ frame false 0x82#8 0x01#8 = some .readLimits
        ∧ frame false 0x82#8 0x19#8 = some .cancel ∧ frame false 0x82#8 0x1A#8 = some (.unknownCommand 0x1A#8)
        ∧ frame true 0x82#8 0x18#8 = some (.commandWriteWhileBusy 0x18#8) ∧ frame true 0x82#8 0x19#8 = some .cancel)
      ∧ (0x24 < (0x25#7).toNat ∧ (0x7F#8).getLsbD 7 = false ∧ misoByte base base base 0x7F#8 4 = some 0#8
        ∧ misoByte base base base 0x7F#8 5 = some 0#8 ∧ misoByte base base underPorst 0x7F#8 1 = some 0#8) :=
  ⟨by decide, by decide, rfl, by decide, by decide, by decide, by decide⟩

/-- A part with `n` transactions in port A's queue. -/
def queueing (n : Nat) (st : Stand) : State :=
  { base with path := { base.path with queueA := List.replicate n (queued (readOfSize 0 1) st) } }

theorem witness_PortsTakeAndAnswerInOrder :
    let r : Response := { code := .poison, data := [0#8] }
    (base.pins.porst = false ∧ (pinned true false true base).pins.srst = true
      ∧ 8 ≤ (queueOf (queueing 8 .taken) .a).length ∧ (queueing 7 .taken).pins.srst = false
      ∧ (queueOf (queueing 7 .taken) .a).length < 8)
    ∧ (queueOf (queueing 1 (.decided r)) .a = [queued (readOfSize 0 1) (.decided r)] ++ []
      ∧ [queued (readOfSize 0 1) (.decided r)].map (·.stand) = [r].map Stand.decided)
    ∧ queueOf (queueing 1 .taken) .a = [] ++ [queued (readOfSize 0 1) .taken] := by decide

/-- At intake, past the checks and the watches. -/
theorem passed_of (s : State) (p : Port) (t : Taken)
    (h : (s.pins.porst = false ∧ atIntake s p = some t ∧ t.stand = .taken)
      ∧ ((serviceState s = .inService ∧ txFormed t.tx = true ∧ txLine t.tx < s.fence.current
        ∧ (regionLookup s (txLine t.tx)).allows p t.tx.kind = true) ∧ watchRefuses p t.tx s = false)) :
    AtIntake s p t ∧ Passed s p t := h

theorem witness_MalformedTransactionsAreAnsweredMalformed :
    (AtIntake (asking (readOfSize 0 0)) .a (queued (readOfSize 0 0))
        ∧ serviceState (asking (readOfSize 0 0)) = .inService)
      ∧ AtIntake (asking (readOfSize 0 65)) .a (queued (readOfSize 0 65))
      ∧ (AtIntake (asking (readOfSize 63 2)) .a (queued (readOfSize 63 2))
        ∧ 64 < (63#32).toNat % 64 + (readOfSize 63 2).size)
      ∧ txFormed (readOfSize 0 64) = true ∧ txFormed (readOfSize 63 1) = true := by
  unfold AtIntake; decide

/-- A part with region 0 covering line 5 with no access. -/
def closedRegion : State :=
  { asking (readOfSize 320 4) with
    tables :=
      { base.tables with
        regions :=
          { enabled := true, first := 5, last := 5, cls := 0, aRead := false, aWrite := true, bRead := true, bWrite := true }
            :: List.replicate 15 regionDefault } }

/-- A part whose fence is 5. -/
def fenced : State := { asking (readOfSize 320 4) with fence := { base.fence with current := 5 } }

theorem witness_ServiceFenceAndAccessRefusals :
    (∀ t ∈ atIntake base .a, t.stand ≠ .taken)
      ∧ (AtIntake (pinned true false true (asking (readOfSize 0 1))) .a (queued (readOfSize 0 1))
        ∧ serviceState (pinned true false true (asking (readOfSize 0 1))) ≠ .inService)
      ∧ (AtIntake fenced .a (queued (readOfSize 320 4)) ∧ serviceState fenced = .inService
        ∧ txFormed (readOfSize 320 4) = true ∧ fenced.fence.current ≤ (readOfSize 320 4).addr.toNat / 64)
      ∧ AtIntake closedRegion .a (queued (readOfSize 320 4)) ∧ serviceState closedRegion = .inService
      ∧ (readOfSize 320 4).addr.toNat / 64 < closedRegion.fence.current
      ∧ ∃ r rest, closedRegion.tables.regions = [] ++ r :: rest ∧ r.enabled = true
        ∧ r.first ≤ (readOfSize 320 4).addr.toNat / 64 ∧ (readOfSize 320 4).addr.toNat / 64 ≤ r.last
        ∧ r.aRead = false := by
  refine ⟨?_, ?_, ?_, ?_, ?_, ?_, _, _, rfl, ?_⟩ <;> (try unfold AtIntake) <;> decide

/-- A part with a refusing range watch over byte 320. -/
def watchedPart (tx : Transaction) : State :=
  { asking tx with
    watch :=
      { base.watch with
        ranges :=
          { enabled := true, first := 320, last := 320, kinds := .both, ports := .both, action := .refuse, tag := 7#8
            hit := false } :: List.replicate 7 RangeWatch.cleared } }

/-- A part with a noting range watch over byte 320. -/
def notedPart (tx : Transaction) : State :=
  { asking tx with
    watch :=
      { base.watch with
        ranges :=
          { enabled := true, first := 320, last := 320, kinds := .both, ports := .both, action := .note, tag := 7#8
            hit := false } :: List.replicate 7 RangeWatch.cleared } }

theorem witness_WatchRefusalSetsHitsAndRecords :
    let tx := readOfSize 320 4
    let s := watchedPart tx
    AtIntake s .a (queued tx) ∧ Admitted s .a (queued tx)
      ∧ (∀ x ∈ base.watch.ranges, rangeMatches .a tx x = false)
      ∧ (∀ x ∈ (notedPart tx).watch.ranges, rangeMatches .a tx x = true → x.action ≠ .refuse)
      ∧ (∃ x ∈ (notedPart tx).watch.ranges, rangeMatches .a tx x = true)
      ∧ ∃ r rest, s.watch.ranges = [] ++ r :: rest ∧ rangeMatches .a tx r = true
        ∧ (∃ x ∈ s.watch.ranges, rangeMatches .a tx x = true ∧ x.action = .refuse) := by
  refine ⟨?_, ?_, ?_, ?_, ?_, _, _, rfl, ?_, ?_⟩ <;> (try unfold AtIntake) <;> (try unfold Admitted) <;> decide

theorem witness_rangeMatches :
    let hit := fun first last kinds ports =>
      rangeMatches .a (readOfSize 320 4)
        { RangeWatch.cleared with enabled := true, first := first, last := last, kinds := kinds, ports := ports }
    (hit 323 400 .read .a = true ∧ hit 324 400 .read .a = false)
      ∧ (hit 0 320 .both .both = true ∧ hit 0 319 .both .both = false)
      ∧ (hit 320 320 .write .a = false ∧ hit 320 320 .read .b = false)
      ∧ rangeMatches .a (readOfSize 0 1) RangeWatch.cleared = false := by decide

/-- A part under PWARN with a write at intake and a sequence watch of two targets. -/
def sequenced (armed : Bool) (addr0 addr1 : Nat) (index : Nat) : State :=
  { pinned false true true (asking (writeOfSize 320 4)) with
    watch :=
      { base.watch with
        targets :=
          [{ addr := addr0, kind := .write, tag := 1#8 }, { addr := addr1, kind := .write, tag := 2#8 }]
            ++ List.replicate 14 Target.atRelease
        count := 2, index := index, armed := armed } }

theorem witness_SequenceWatchIsTestedBeforeThePowerWarning :
    let t := queued (writeOfSize 320 4)
    let hits := fun (s : State) j => targetMatches t.tx (s.watch.targets.getD j Target.atRelease)
    (AtIntake (sequenced false 320 0 0) .a t ∧ Admitted (sequenced false 320 0 0) .a t
      ∧ (sequenced false 320 0 0).pins.pwarn = true
      ∧ ∀ r ∈ (sequenced false 320 0 0).watch.ranges, rangeMatches .a t.tx r = false)
      ∧ (AtIntake (sequenced true 320 0 0) .a t ∧ Admitted (sequenced true 320 0 0) .a t
        ∧ hits (sequenced true 320 0 0) 0 = true ∧ 0 + 1 < (sequenced true 320 0 0).watch.count)
      ∧ (AtIntake (sequenced true 0 320 1) .a t ∧ Admitted (sequenced true 0 320 1) .a t
        ∧ hits (sequenced true 0 320 1) 1 = true ∧ (sequenced true 0 320 1).watch.count ≤ 1 + 1)
      ∧ (AtIntake (sequenced true 0 320 0) .a t ∧ Admitted (sequenced true 0 320 0) .a t
        ∧ hits (sequenced true 0 320 0) 0 = false ∧ hits (sequenced true 0 320 0) 1 = true)
      ∧ AtIntake (sequenced true 0 64 0) .a t ∧ Admitted (sequenced true 0 64 0) .a t
      ∧ (∀ j, j < 2 → hits (sequenced true 0 64 0) j = false)
      ∧ Passed (sequenced true 320 0 0) .a t
      ∧ (targetMatches t.tx { addr := 323, kind := .write, tag := 0#8 } = true
        ∧ targetMatches t.tx { addr := 324, kind := .write, tag := 0#8 } = false
        ∧ targetMatches (readOfSize 320 4) { addr := 320, kind := .read, tag := 0#8 } = true) := by
  unfold AtIntake Passed Admitted; decide

/-- A part with a pending write of bytes 0 to 3 of line 5. -/
def forwarding (tx : Transaction) : State := { asking tx with buffer := { base.buffer with entries := [entry .pending] } }

/-- The link is unavailable. -/
def cutOff (s : State) : State := { s with link := { s.link with unavailable := true } }

theorem witness_ReadsAnsweredAtIntake :
    let whole := readOfSize 320 4
    let part := readOfSize 320 5
    (AtIntake (forwarding whole) .a (queued whole) ∧ Passed (forwarding whole) .a (queued whole)
      ∧ spanMask 0 4 &&& ~~~forwardMask (forwarding whole) 5 = Mask.empty)
      ∧ (AtIntake (remapped .poisoned (forwarding part)) .a (queued part)
        ∧ Passed (remapped .poisoned (forwarding part)) .a (queued part)
        ∧ spanMask 0 5 &&& ~~~forwardMask (remapped .poisoned (forwarding part)) 5 ≠ Mask.empty
        ∧ poisonedFor (remapped .poisoned (forwarding part)) 5 (spanMask 4 1) = true)
      ∧ AtIntake (cutOff (forwarding part)) .a (queued part) ∧ Passed (cutOff (forwarding part)) .a (queued part)
      ∧ spanMask 0 5 &&& ~~~forwardMask (cutOff (forwarding part)) 5 ≠ Mask.empty
      ∧ poisonedFor (cutOff (forwarding part)) 5 (spanMask 4 1) = false ∧ (cutOff (forwarding part)).link.unavailable = true := by
  unfold AtIntake Passed Admitted; decide

/-- A part with a PENDING write of bytes 0 to 3 and a DRAINING one of bytes 0 to 7 of line 5. -/
def overlaid : State :=
  holding
    [{ entry .draining with mask := spanMask 0 8, data := List.replicate 64 1#8 },
      { entry .pending with data := List.replicate 64 2#8 }]

theorem witness_snapshot_and_known_bytes :
    forwardMask overlaid 5 = spanMask 0 8
      ∧ ((forwardData overlaid 5).getD 3 0#8 = 2#8 ∧ (forwardData overlaid 5).getD 4 0#8 = 1#8)
      ∧ ((spanMask 60 4).getLsbD 63 = true ∧ (spanMask 60 4).getLsbD 59 = false)
      ∧ (poisonedFor (remapped (.partialOf (spanMask 0 4)) base) 5 (spanMask 0 4) = false
        ∧ poisonedFor (remapped (.partialOf (spanMask 0 4)) base) 5 (spanMask 0 5) = true
        ∧ poisonedFor (remapped .intact base) 5 (spanMask 0 5) = false
        ∧ poisonedFor (remapped .poisoned base) 5 (spanMask 0 1) = true ∧ poisonedFor base 5 (spanMask 0 1) = false) := by
  decide

/-- An exclusive claim on line 5. -/
def claimed (s : State) : State :=
  { s with link := { s.link with claims := [(5, { holders := .exclusive .noData, waiting := [] })] } }

theorem witness_ReadsRequestASharedClaim :
    let part := readOfSize 320 5
    (AtIntake (forwarding part) .a (queued part) ∧ Passed (forwarding part) .a (queued part)
      ∧ spanMask 0 5 &&& ~~~forwardMask (forwarding part) 5 ≠ Mask.empty
      ∧ poisonedFor (forwarding part) 5 (spanMask 0 5 &&& ~~~forwardMask (forwarding part) 5) = false
      ∧ (forwarding part).link.unavailable = false ∧ claimFree (forwarding part) 5 .shared = true)
      ∧ AtIntake (claimed (forwarding part)) .a (queued part) ∧ Passed (claimed (forwarding part)) .a (queued part)
      ∧ claimFree (claimed (forwarding part)) 5 .shared = false := by
  unfold AtIntake Passed Admitted; decide

/-- A part whose buffer holds `n` entries of other lines. -/
def entries (n : Nat) (s : State) : State :=
  { s with
    buffer := { s.buffer with entries := (List.range n).map fun k => { entry .pending with line := k + 100 } } }

/-- A part whose system capacity is in use. -/
def filled (s : State) : State := entries 30 s

theorem witness_PostedWritesMergeJoinOrWait :
    let tx := writeOfSize 320 4
    let joins := fun (s : State) => s.buffer.waiting.isEmpty && systemEntryFree s
    (AtIntake (forwarding tx) .a (queued tx) ∧ Passed (forwarding tx) .a (queued tx)
      ∧ (forwarding tx).pins.pwarn = false ∧ postingLine (forwarding tx) 5 = true
      ∧ (pendingEntry (forwarding tx) 5).isSome = true)
      ∧ (AtIntake (asking tx) .a (queued tx) ∧ Passed (asking tx) .a (queued tx) ∧ postingLine (asking tx) 5 = true
        ∧ (pendingEntry (asking tx) 5).isSome = false ∧ joins (asking tx) = true)
      ∧ (AtIntake (filled (asking tx)) .a (queued tx) ∧ Passed (filled (asking tx)) .a (queued tx)
        ∧ postingLine (filled (asking tx)) 5 = true ∧ joins (filled (asking tx)) = false
        ∧ (filled (asking tx)).link.unavailable = false)
      ∧ Passed (cutOff (filled (asking tx))) .a (queued tx) ∧ postingLine (cutOff (filled (asking tx))) 5 = true
      ∧ joins (cutOff (filled (asking tx))) = false := by
  unfold AtIntake Passed Admitted; decide

theorem witness_entries_free :
    (systemEntryFree (entries 29 base) = true ∧ systemEntryFree (entries 30 base) = false)
      ∧ (systemEntryFree (busyWith (.reserve 4) (entries 27 base)) = true
        ∧ systemEntryFree (busyWith (.reserve 4) (entries 28 base)) = false)
      ∧ (stagingEntryFree (jobsOf 1) = true ∧ stagingEntryFree (jobsOf 2) = false)
      ∧ (stagingEntryFree (busyWith (.reserve 1) (jobsOf 0)) = true
        ∧ stagingEntryFree (busyWith (.reserve 1) (jobsOf 1)) = false) := by decide

/-- A part whose classes are written through and kept out of the patrol. -/
def throughClass (s : State) : State :=
  { s with
    tables := { s.tables with classes := List.replicate 4 { mode := .through, patrol := .excluded, threshold := .off } } }

theorem witness_ThroughWritesHoldTheirPortsIntake :
    let tx := writeOfSize 320 64
    let s := throughClass (asking tx)
    let r : State := { s with metaCtl := { s.metaCtl with phase := .readReady } }
    (AtIntake s .a (queued tx) ∧ Passed s .a (queued tx) ∧ s.pins.pwarn = false ∧ postingLine s 5 = false
      ∧ s.link.unavailable = false ∧ s.metaCtl.phase ≠ .readReady)
      ∧ (AtIntake (cutOff s) .a (queued tx) ∧ Passed (cutOff s) .a (queued tx) ∧ postingLine (cutOff s) 5 = false)
      ∧ AtIntake r .a (queued tx) ∧ Passed r .a (queued tx) ∧ postingLine r 5 = false
      ∧ r.metaCtl.phase = .readReady := by
  unfold AtIntake Passed Admitted; decide

/-- A through-write of line 5 of port A. -/
def throughWrite (stage : ThroughStage) : ThroughWrite :=
  { serial := 0, port := some .a, stage := stage, course := course .intact, issued := false, listed := false }

/-- A part with a through-write of line 5. -/
def passing (stage : ThroughStage) (s : State) : State :=
  { s with
    path := { s.path with queueA := [queued (writeOfSize 320 4) .through], throughs := [throughWrite stage] } }

theorem witness_ThroughWriteClaimsItsClearLine :
    (base.pins.porst = false ∧ waitingThrough base .a = none)
      ∧ (waitingThrough (passing .waitLine (holding [entry .pending])) .a = some (throughWrite .waitLine)
        ∧ lineClear (passing .waitLine (holding [entry .pending])) 5 = false)
      ∧ (waitingThrough (passing .waitLine (claimed base)) .a = some (throughWrite .waitLine)
        ∧ lineClear (passing .waitLine (claimed base)) 5 = true
        ∧ claimFree (passing .waitLine (claimed base)) 5 .exclusive = false)
      ∧ waitingThrough (passing .waitLine base) .a = some (throughWrite .waitLine)
      ∧ lineClear (passing .waitLine base) 5 = true ∧ claimFree (passing .waitLine base) 5 .exclusive = true := by decide

theorem witness_WaitingWritesAreTakenInOrder :
    base.pins.porst = false ∧ (pendingEntry (holding [entry .pending]) 5).isSome = true
      ∧ ((pendingEntry base 5).isSome = false ∧ systemEntryFree base = true)
      ∧ (pendingEntry (filled base) 5).isSome = false ∧ systemEntryFree (filled base) = false := by decide

theorem witness_CoursesBeginByMaskAndDataState :
    (∀ n, Writer.through 0 = .through n → ∃ x ∈ (passing .waitClaim base).path.throughs, x.serial = n)
      ∧ (∀ n, Writer.drain = .through n → ∃ x ∈ base.path.throughs, x.serial = n)
      ∧ ¬(spanMask 0 64 ≠ Mask.full ∧ dataState (remapped .poisoned base) 5 = .poisoned)
      ∧ spanMask 0 64 = Mask.full ∧ spanMask 0 63 ≠ Mask.full ∧ dataState (remapped .poisoned base) 5 = .poisoned
      ∧ dataState base 5 ≠ .poisoned :=
  ⟨fun n h => ⟨throughWrite .waitClaim, by simp [passing], by cases h; rfl⟩, (fun _ h => nomatch h), by decide, by decide⟩

theorem witness_DrainSelectTakesTheOldestEligibleEntry :
    (base.pins.porst = false ∧ (draining .intact .spareProgram).buffer.drain.isSome = true)
      ∧ (∀ e ∈ (claimed (holding [entry .pending])).buffer.entries, eligible (claimed (holding [entry .pending])) e = false)
      ∧ (holding [entry .pending]).buffer.drain = none ∧ (holding [entry .pending]).metaCtl.phase = .fullReady
      ∧ (holding [entry .pending]).buffer.entries = [] ++ entry .pending :: []
      ∧ eligible (holding [entry .pending]) (entry .pending) = true := by decide

theorem witness_CoursesEndByAnswerOrReport :
    let d := draining .intact (.mappedProgram .drain)
    (d.buffer.drain = some (course .intact) ∧ drainingEntry d = some (entry .draining))
      ∧ (∀ n k, d.mgmt.busy ≠ some (.drainAll n k))
      ∧ (busyWith (.drainAll 1 0) d).mgmt.busy = some (.drainAll 1 0)
      ∧ drainingEntry
          { d with buffer := { d.buffer with entries := [{ entry .draining with target := true }] } }
        = some { entry .draining with target := true }
      ∧ throughOf (passing .course base) 0 = some (throughWrite .course) ∧ (throughWrite .course).port = some .a
      ∧ (throughWrite .course).port ≠ some .b :=
  ⟨by decide, (fun _ _ h => nomatch h), by decide⟩

theorem witness_SrstClosesThePortsAndWithdraws :
    base.pins.porst = false ∧ base.pins.srst = false ∧ (pinned true false true base).pins.srst = true
      ∧ ((passing .course base).path.throughs.map (·.serial)).Nodup ∧ base.fence.retain = false
      ∧ ({ base with fence := { base.fence with retain := true } } : State).fence.retain = true
      ∧ base.buffer.entries = [] ∧ (holding [entry .pending]).buffer.entries ≠ []
      ∧ ((storing (some .storage)).pins.srst = false ∧ ((storing (some .storage)).path.throughs.map (·.serial)).Nodup
        ∧ (storing (some .storage)).path.throughs.filter (fun t => !t.issued) ≠ []
        ∧ (storing (some .storage)).remap.workList.head?.any (fun r => decide (r.writer = some (.through 0))) = true) := by
  decide

theorem witness_PowerWarningTurnsWaitingWritesAway :
    base.pins.porst = false ∧ base.pins.pwarn = false ∧ (pinned false true true base).pins.pwarn = true
      ∧ ((passing .course base).path.throughs.map (·.serial)).Nodup
      ∧ ((passing .course base).path.throughs.filter fun t => !t.reached) ≠ []
      ∧ ((storing none).path.throughs.filter fun t => !t.reached) = [] := by decide

theorem witness_GrantFollowsItsPin :
    base.pins.porst = false ∧ base.pins.agnt = true ∧ base.link.inFlight = none
      ∧ (pinned false false false base).pins.agnt = false
      ∧ (flying (.patrolRead 0) base).link.inFlight = some { plainRead (.patrolRead 0) 0 with issued := true } := by decide

/-- A system read of line 5. -/
def systemRead : SystemRead :=
  { serial := 0, port := .a, line := 5, offset := 0, size := 4, covered := Mask.empty, snapshot := zeroLine
    answered := true }

/-- A part that has waited for the grant. -/
def grantWaited (ticks : Nat) : State :=
  { pinned false false false base with
    link := { base.link with work := [plainRead (.patrolRead 0) 0], limit := 1, waitTicks := ticks } }

theorem witness_GrantWaitExpiryAnswersUnavailable :
    ((grantWaited 10).pins.porst = false ∧ grantExpired (grantWaited 10) = true ∧ grantExpired (grantWaited 9) = false)
      ∧ (let s : State :=
          { passing .course (grantWaited 10) with
            path :=
              { queueA := [queued (readOfSize 320 4) .reading], queueB := [queued (writeOfSize 320 4) .through]
                drainWait := false, reads := [systemRead], serial := 4, sentA := [], sentB := []
                throughs :=
                  [{ throughWrite .course with serial := 1, port := none }, { throughWrite .course with serial := 2, listed := true },
                    { throughWrite .course with serial := 3 }] } }
        grantExpired s = true ∧ (s.path.throughs.map (·.serial)).Nodup
          ∧ (∃ r ∈ s.path.reads, r.answered = true ∧ r.port = .a ∧ r.serial = 0)
          ∧ (¬∃ x ∈ s.path.throughs, x.port = some .a ∧ x.serial = 0)
          ∧ (∃ x ∈ s.path.throughs, x.port = some .a ∧ x.serial = 3)
          ∧ (queueOf s .b)[0]? = some (queued (writeOfSize 320 4) .through)
          ∧ ¬∃ x ∈ s.path.throughs, x.port = some .b ∧ x.serial = 0) := by decide

/-- A part in READ_READY whose settle timer has run. -/
def settled (ticks : Nat) (repair : List MetaLine) : State :=
  { base with metaCtl := { phase := .readReady, repair := repair, settleTicks := some ticks } }

theorem witness_ReadReadyEndsInTheRepair :
    base.metaCtl.phase ≠ .readReady
      ∧ ((∀ e ∈ (settled 0 []).buffer.entries, eligible (settled 0 []) e = false)
        ∧ ∀ o ∈ (settled 0 []).link.work, o.isProgram = false)
      ∧ (let s : State := { settled 0 [] with buffer := { base.buffer with entries := [entry .pending] } }
        s.metaCtl.phase = .readReady ∧ ¬∀ e ∈ s.buffer.entries, eligible s e = false)
      ∧ (base.pins.porst = false ∧ (settled 20000 []).metaCtl.phase = .readReady ∧ (20000 : Nat) ≤ 20000
        ∧ (settled 20000 []).metaCtl.repair = [])
      ∧ (settled 20000 [.image 0]).metaCtl.repair = .image 0 :: [] ∧ repairOutstanding (settled 20000 [.image 0]) = false
      ∧ (settled 19999 []).metaCtl.settleTicks = some 19999
      ∧ repairOutstanding
          { settled 20000 [.image 0] with
            link := { base.link with work := [plainRead (.metaProgram (.image 0) [.repair]) 0] } } = true := by decide

theorem test_settling_places_the_repair_program :
    (settle { settled 0 [.image 7] with buffer := { base.buffer with entries := [entry .pending] } }).link.work.map
        (fun o => (o.purpose, o.arrayLine)) = [(.metaProgram (.image 7) [.repair], 1043450 + 4096 + 7)]
      ∧ (settle { settled 0 [.image 7] with buffer := { base.buffer with entries := [entry .pending] } }).metaCtl.phase
        = .repairing := by decide

theorem witness_PatrolStepsReadTheNextLine :
    let last := 1043449
    let s := patrolling .singlePass last none base
    (base.pins.porst = false ∧ base.health.patrol.mode = .stopped)
      ∧ (s.health.patrol.mode ≠ .stopped ∧ s.health.patrol.interval ≤ s.health.patrol.ticks)
      ∧ (patrolling .continuous 0 (some 0) base).health.patrol.outstanding.isSome = true
      ∧ ¬(s.health.patrol.outstanding.isSome = true ∨ s.metaCtl.phase ≠ .fullReady ∨ s.pins.pwarn = true)
      ∧ (∀ l, (throughClass s).health.patrol.cursor ≤ l → l < (throughClass s).fence.uNative →
        passedOver (throughClass s) l = true)
      ∧ (s.health.patrol.cursor ≤ last ∧ last < s.fence.uNative ∧ passedOver s last = false ∧ last + 1 = s.fence.uNative)
      ∧ passedOver (patrolling .continuous (last - 1) none base) (last - 1) = false ∧ last - 1 + 1 < base.fence.uNative := by
  refine ⟨by decide, by decide, by decide, by decide, ?_, by decide, by decide⟩
  intro l h1 h2
  have h3 : 1043449 ≤ l := h1
  have h4 : l < 1043450 := h2
  have h5 : l = 1043449 := by omega
  subst h5
  decide

theorem witness_ArrayIssueFollowsTheWorkOrder :
    let s : State := { base with link := { base.link with work := [plainRead (.patrolRead 0) 0] } }
    (base.pins.porst = false ∧ ∀ o ∈ base.link.work, issuable base o = false)
      ∧ (flying (.patrolRead 0) base).link.inFlight.isSome = true
      ∧ (s.link.inFlight = none ∧ s.pins.agnt = true ∧ ∃ o ∈ s.link.work, issuable s o = true)
      ∧ (let w : ArrayOp := { plainRead (.mergeRead (.through 0)) 5 with first := true }
        let v : State := { passing .course base with link := { base.link with work := [w, { w with issued := true }] } }
        w.kind v = .throughWrite ∧ issuable v w = true ∧ issuable v { w with issued := true } = true
          ∧ v.path.throughs = [] ++ throughWrite .course :: [])
      ∧ (remapEntry (remapped .intact base) 5).isSome = true
      ∧ (atIssue (remapped .intact base) (plainRead (.patrolRead 5) 5)).arrayLine = 1043450
      ∧ (1024 ≤ 1024 ∧ formatContent base 1029 = .header 0#2 1043450 false false)
      ∧ ∃ x ∈ (insertRead (plainRead (.systemRead 1) 5) 1 [plainRead (.systemRead 2) 5]).head?, x.purpose = .systemRead 1 := by
  decide

theorem witness_issuable_and_urgent :
    let read : ArrayOp := plainRead (.loadRead (.image 0)) 0
    let program : ArrayOp := { plainRead (.formatProgram 0) 0 with action := .compose }
    (issuable (inPhase .geometryFault) read = false ∧ issuable (inPhase .unformatted) read = false)
      ∧ (issuable (inPhase .loading) read = true ∧ issuable (inPhase .loading) program = false)
      ∧ (issuable (inPhase .formatting) program = true ∧ issuable (inPhase .formatting) read = false)
      ∧ (issuable (inPhase .readReady) read = true ∧ issuable (inPhase .readReady) program = false)
      ∧ (issuable (inPhase .repairing) program = true ∧ issuable (inPhase .fullReady) program = true)
      ∧ (drainUrgent (entries 21 base) = false ∧ drainUrgent (entries 22 base) = true)
      ∧ (drainUrgent (pinned false true true base) = true
        ∧ drainUrgent (holding [{ entry .draining with target := true }]) = true
        ∧ drainUrgent (holding [{ entry .pending with target := true }]) = false)
      ∧ ({ plainRead (.mergeRead .drain) 5 with first := true } : ArrayOp).kind (entries 21 base) = .drain
      ∧ ({ plainRead (.mergeRead .drain) 5 with first := true } : ArrayOp).kind (entries 22 base) = .urgentDrain := by decide

/-- A part with a system read of line 5. -/
def reading (s : State) : State :=
  { s with path := { s.path with queueA := [queued (readOfSize 320 4) .reading], reads := [systemRead] } }

theorem witness_SystemReadsAnswerByEccStatus :
    dueFor (flying (.systemRead 0) (reading base)) (.systemRead systemRead.serial)
      ∧ readOf (flying (.systemRead 0) (reading base)) systemRead.serial = some systemRead :=
  ⟨due_of _ _ ⟨rfl, rfl⟩, by decide⟩

theorem witness_corrected :
    (corrected base 5 (.corrected 2) = false ∧ corrected base 5 (.corrected 3) = true)
      ∧ corrected (throughClass base) 5 (.corrected 8) = false ∧ corrected base 5 .uncorrectable = false
      ∧ (passedOver (throughClass base) 5 = true ∧ passedOver (remapped .poisoned base) 5 = true
        ∧ passedOver (remapped (.partialOf 1#64) base) 5 = false) := by decide

/-- A part with `n` candidates and `m` reassigns with no data. -/
def loaded (n m : Nat) : State :=
  { base with
    health := { base.health with candidates := (List.range n).map fun k => { line := k + 100, source := .read } }
    remap := { base.remap with noData := (List.range m).map fun k => { line := k + 200, origin := .candidateOverflow } } }

/-- A part with `n` jobs in the relocation queue. -/
def jobbed (n : Nat) : State :=
  { base with
    health := { base.health with queue := (List.range n).map fun k => { line := k, reason := .readCorrected } } }

/-- A job of line 5. -/
def job (reason : Reason) : Job := { line := 5, reason := reason, known := Mask.full, staged := none }

theorem witness_OffersAndNeedsKeepOneEntryPerLine :
    let present := fun (s : State) line => isCandidate s line || noDataPresent s line || jobInFlight s line
    present (loaded 1 0) 100 = true
      ∧ present { base with health := { base.health with jobs := [job .readCorrected] } } 5 = true
      ∧ (present (loaded 31 0) 5 = false ∧ (loaded 31 0).health.candidates.length < 32)
      ∧ (present (loaded 32 15) 5 = false
        ∧ 32 ≤ (loaded 32 15).health.candidates.length ∧ (loaded 32 15).remap.noData.length < 16)
      ∧ (present (loaded 32 16) 5 = false ∧ 16 ≤ (loaded 32 16).remap.noData.length)
      ∧ jobQueued (jobbed 1) 0 = true
      ∧ ((jobQueued (jobbed 15) 15 || jobInFlight (jobbed 15) 15 || isCandidate (jobbed 15) 15) = false
        ∧ (jobbed 15).health.queue.length < 16)
      ∧ (jobQueued (jobbed 16) 16 || jobInFlight (jobbed 16) 16 || isCandidate (jobbed 16) 16) = false
      ∧ 16 ≤ (jobbed 16).health.queue.length := by decide

/-- A part with a job of line 5 in flight. -/
def relocating (s : State) : State := { s with health := { s.health with jobs := [job .readCorrected] } }

theorem witness_PatrolAndSourceReadsReport :
    dueFor (flying (.patrolRead 5) base) (.patrolRead 5)
      ∧ dueFor (flying (.jobRead 5) (relocating base)) (.jobRead 5)
      ∧ jobOf (flying (.jobRead 5) (relocating base)) 5 = some (job .readCorrected) :=
  ⟨due_of _ _ ⟨rfl, rfl⟩, due_of _ _ ⟨rfl, rfl⟩, by decide⟩

theorem witness_CoursesAdvanceByCompletions :
    (courseOf (draining .intact (.mergeRead .drain)) .drain = some (course .intact)
      ∧ dueFor (draining .intact (.mergeRead .drain)) (.mergeRead .drain))
      ∧ (dueFor (draining .poisoned (.mappedProgram .drain)) (.mappedProgram .drain)
        ∧ isCandidate (draining .poisoned (.mappedProgram .drain)) 5 = false)
      ∧ isCandidate
          { draining .intact (.mappedProgram .drain) with
            health := { base.health with candidates := [{ line := 5, source := .read }] } } 5 = true
      ∧ (courseOf (flying (.verifyRead (.through 0)) (passing .course base)) (.through 0) = some (course .intact))
      ∧ dueFor (flying (.verifyRead (.through 0)) (passing .course base)) (.verifyRead (.through 0)) :=
  ⟨⟨by decide, due_of _ _ ⟨rfl, rfl⟩⟩, ⟨due_of _ _ ⟨rfl, rfl⟩, by decide⟩, by decide, by decide, due_of _ _ ⟨rfl, rfl⟩⟩

/-- A reassign with data for the job of line 5. -/
def reassign : Request := .reassign (.job 5) 5 zeroLine Mask.full .relocated

/-- A part whose slots from 0 up are DEAD. -/
def deadSlots (n : Nat) (s : State) : State := { s with remap := { s.remap with dead := List.range n } }

theorem pool_of_deadSlots (n : Nat) (s : State) (slot : Nat) (h : slot < n) :
    poolState (deadSlots n s) slot = .dead := by
  simp [poolState, deadSlots, h]

theorem witness_ReassignsTakeTheLowestFreeSlot :
    (base.pins.porst = false ∧ base.remap.workList = [])
      ∧ (serving none [reassign] base).remap.serving = none
      ∧ (serving none [reassign] base).remap.workList = reassign :: []
      ∧ (faulty (serving none [reassign] base)).remap.fault = true
      ∧ (∀ slot, slot < 4096 → poolState (deadSlots 4096 base) slot ≠ .free)
      ∧ (poolState (deadSlots 1 base) 1 = .free ∧ ∀ n, n < 1 → poolState (deadSlots 1 base) n ≠ .free)
      ∧ dueFor (flying .spareProgram (serving (some (.spare 4095)) [reassign] base)) .spareProgram :=
  ⟨by decide, by decide, by decide, by decide, fun slot h => by rw [pool_of_deadSlots _ _ _ h]; decide, by decide,
    due_of _ _ ⟨rfl, rfl⟩⟩

theorem freeCount_of_deadSlots (n : Nat) : freeCount (deadSlots n base) = 4096 - n := by
  simp [freeCount, deadSlots, base, State.reset, State.atRelease, State.powerOn, Config.spareSlots]

theorem witness_posting_threshold :
    (freeCount (deadSlots 4031 base) = 65 ∧ postingLine (deadSlots 4031 base) 5 = true)
      ∧ (freeCount (deadSlots 4032 base) = 64 ∧ postingLine (deadSlots 4032 base) 5 = false)
      ∧ postingLine (deadSlots 4096 { base with remap := { base.remap with loaded := false } }) 5 = true := by
  simp only [postingLine_iff, postingLine_false_iff, freeCount_of_deadSlots]
  refine ⟨⟨trivial, rfl, ?_⟩, ⟨trivial, Or.inr ⟨rfl, ?_⟩⟩, rfl, ?_⟩ <;>
    simp [deadSlots, base, State.reset, State.atRelease, State.powerOn]

theorem witness_lineClass :
    let s := { closedRegion with
      tables :=
        { closedRegion.tables with
          regions := closedRegion.tables.regions.map fun r => { r with cls := 3 }
          classes := [classDefault, classDefault, classDefault, { classDefault with mode := .through }] } }
    (lineClass s 5).mode = .through ∧ (lineClass s 4).mode = .posted ∧ (lineClass s 6).mode = .posted := by decide

theorem witness_thresholds : freeCount (deadSlots 4031 base) = 65 ∧ freeCount (deadSlots 4095 base) = 1 := by
  simp [freeCount_of_deadSlots]

theorem witness_EntriesGoLiveWithTheirRecord :
    let s := flying (.metaProgram (.image 1023) [.remap]) (serving (some (.inUse 4095)) [reassign] base)
    dueFor s (.metaProgram (.image 1023) [.remap]) ∧ s.metaCtl.phase ≠ .repairing
      ∧ s.remap.serving = some (.inUse 4095) ∧ s.remap.workList = reassign :: []
      ∧ reassign.record = some (5, .intact, .relocated) ∧ remapEntry s 5 = none
      ∧ (remapEntry (remapped .intact s) 5).isSome = true ∧ s.remap.fault = false
      ∧ s.link.work.all (fun o => !o.withdrawable) = true
      ∧ (let d := fun v => serving (some v) [reassign] base
        (d (.deadRecord 0)).remap.serving = some (.deadRecord 0) ∧ (faulty (d (.deadRecord 0))).remap.fault = true
          ∧ poolState (d (.deadRecord 0)) 0 = .free ∧ (d (.oldSlot 0)).remap.serving = some (.oldSlot 0))
      ∧ ∀ n, n < 4096 → poolState (deadSlots 4096 (serving (some (.deadRecord 0)) [reassign] base)) n ≠ .free :=
  ⟨due_of _ _ ⟨rfl, rfl⟩, by decide, by decide, by decide, by decide, by decide, by decide, by decide, by decide, by decide,
    fun n h => by rw [pool_of_deadSlots _ _ _ h]; decide⟩

theorem witness_nextGeneration :
    nextGeneration base 5 = 0#8 ∧ nextGeneration (remapped .intact base) 5 = 1#8
      ∧ nextGeneration
          { base with
            remap :=
              { base.remap with
                table := [(5, { slot := 0, data := .intact, origin := .relocated, generation := 255#8 })] } } 5
        = 0#8 := by decide

theorem witness_OutcomesReachTheirRequesters :
    let r : Request := .reassign (.writer .drain) 5 zeroLine Mask.full .programFail
    (serving none [r] (draining .intact .spareProgram)).remap.workList = r :: []
      ∧ (serving none [reassign] (relocating base)).remap.workList = reassign :: []
      ∧ (serving none [.storage .drain 5 zeroLine 1#64] base).remap.workList = .storage .drain 5 zeroLine 1#64 :: []
      ∧ (serving none [.recording .drain 5 1#64] base).remap.workList = .recording .drain 5 1#64 :: []
      ∧ (serving none [.noData 5 .mergeFail] base).remap.workList = .noData 5 .mergeFail :: [] := by decide

theorem witness_StorageAndRecordingKeepTheKnownBytes :
    let storage := fun (s : State) => serving none [.storage .drain 5 zeroLine 1#64] s
    let recording := fun v (s : State) => serving v [.recording .drain 5 1#64] s
    (base.pins.porst = false ∧ (storage base).remap.serving = none ∧ dataState (storage base) 5 ≠ .poisoned)
      ∧ (dataState (storage (remapped .poisoned base)) 5 = .poisoned
        ∧ (storage (remapped .poisoned base)).remap.fault = false)
      ∧ (faulty (storage (remapped .poisoned base))).remap.fault = true
      ∧ (dueFor (flying (.storageProgram .drain) (storage (remapped .poisoned base))) (.storageProgram .drain)
        ∧ (remapEntry (storage (remapped .poisoned base)) 5).isSome = true)
      ∧ (remapEntry (recording none (remapped .poisoned base)) 5).isSome = true
      ∧ dueFor
          (flying (.metaProgram (.image 0) [.remap])
            (recording (some (.recording (.partialOf 1#64))) (remapped .poisoned base))) (.metaProgram (.image 0) [.remap])
      ∧ (serving (some (.recording .intact)) [.storage .drain 5 zeroLine 1#64] (remapped .poisoned base)).remap.serving
          = some (.recording .intact) :=
  ⟨by decide, by decide, by decide, ⟨due_of _ _ ⟨rfl, rfl⟩, by decide⟩, by decide, due_of _ _ ⟨rfl, rfl⟩, by decide⟩

/-- A waiting claim of line 5 behind holders. -/
def waiting (h : Holders) (q : ClaimRequest) (s : State) : State :=
  { s with link := { s.link with claims := [(5, { holders := h, waiting := [q] })] } }

theorem witness_ClaimsAreGrantedFromTheFront :
    let q : ClaimRequest := { kind := .exclusive, owner := .job 5 }
    base.pins.porst = false
      ∧ (∀ x ∈ (claimRecord (waiting (.exclusive .drain) q base) 5).waiting.head?,
        (claimRecord (waiting (.exclusive .drain) q base) 5).holders.admits x.kind = false)
      ∧ (claimRecord (waiting (.shared []) q base) 5).waiting = q :: []
      ∧ (claimRecord (waiting (.shared []) q base) 5).holders.admits q.kind = true
      ∧ (readOf (reading base) systemRead.serial = some systemRead ∧ poisonedFor (reading base) 5 (spanMask 0 4) = false)
      ∧ (poisonedFor (remapped .poisoned (reading base)) 5 (spanMask 0 4) = true ∧ systemRead.answered = true)
      ∧ throughOf (passing .waitClaim base) 0 = some (throughWrite .waitClaim)
      ∧ dataState (remapped .poisoned base) 5 = .poisoned ∧ dataState (remapped (.partialOf 1#64) base) 5 ≠ .poisoned
      ∧ (loaded 0 1).remap.noData = { line := 200, origin := .candidateOverflow } :: [] := by decide

theorem witness_JobsAndNoDataRequestsAskForClaims :
    let may := fun (s : State) => s.metaCtl.phase = .fullReady ∧ s.pins.pwarn = false ∧ stagingEntryFree s = true
    base.pins.porst = false ∧ base.health.queue = [] ∧ may (jobbed 1) ∧ ¬may (pinned false true true (jobbed 1))
      ∧ (jobbed 1).health.queue = { line := 0, reason := .readCorrected } :: []
      ∧ base.remap.noData = []
      ∧ ({ loaded 0 1 with remap := { (loaded 0 1).remap with noDataAsked := true } } : State).remap.noDataAsked = true
      ∧ (loaded 0 1).remap.noDataAsked = false ∧ (loaded 0 1).remap.workList = []
      ∧ (loaded 0 1).remap.noData = { line := 200, origin := .candidateOverflow } :: [] := by decide

/-- A metadata program in flight. -/
def programming (l : MetaLine) (askers : List MetaAsker) (s : State) : State := flying (.metaProgram l askers) s

theorem witness_MetadataProgramsServeTheirRequests :
    let repairing := fun (ls : List MetaLine) =>
      ({ base with metaCtl := { phase := .repairing, repair := ls, settleTicks := none } } : State)
    (dueFor (programming (.settings 0) [.command] (busyWith .header base)) (.metaProgram (.settings 0) [.command])
      ∧ base.metaCtl.phase ≠ .repairing ∧ base.remap.fault = false
      ∧ base.link.work.all (fun o => !o.withdrawable) = true)
      ∧ (busyWith (.save [0]) base).mgmt.busy = some (.save (0 :: []))
      ∧ (faulty (busyWith (.save [0]) base)).remap.fault = true
      ∧ (dueFor (programming (.image 0) [.repair] (repairing [.image 0])) (.metaProgram (.image 0) [.repair])
        ∧ (repairing [.image 0]).metaCtl.repair = .image 0 :: [])
      ∧ ((repairing [.image 0, .settings 5]).metaCtl.repair = .image 0 :: [.settings 5]
        ∧ MetaLine.image 0 ∉ [MetaLine.settings 5]
        ∧ repairOutstanding (portFreed (programming (.image 0) [.repair] (repairing [.image 0, .settings 5]))) = false)
      ∧ dueFor (programming (.settings 1) [.command] base) (.metaProgram (.settings 1) [.command])
      ∧ dueFor (programming (.image 0) [.remap] base) (.metaProgram (.image 0) [.remap])
      ∧ (let p := { plainRead (.metaProgram (.image 0) [.repair]) 0 with action := .compose }
        let s : State := { repairing [.image 0] with link := { base.link with work := [p] } }
        s.link.work = [] ++ p :: [] ∧ p.issued = false ∧ p.withdrawable = true ∧ repairOutstanding s = true
          ∧ (requestMeta (.image 0) .remap s).link.work = [{ p with purpose := .metaProgram (.image 0) [.repair, .remap] }])
      ∧ ((repairing []).metaCtl.phase = .repairing ∧ (repairing []).metaCtl.repair = []) :=
  ⟨⟨due_of _ _ ⟨rfl, rfl⟩, by decide⟩, by decide, by decide, ⟨due_of _ _ ⟨rfl, rfl⟩, by decide⟩, by decide,
    due_of _ _ ⟨rfl, rfl⟩, due_of _ _ ⟨rfl, rfl⟩, by decide, by decide⟩

/-- A record as read. -/
def inUseRecord (line : Nat) (g : BitVec 8) (d : DataState) : RawRecord :=
  { state := some .inUse, line := line, data := some d, origin := some .relocated, generation := g }

theorem witness_LoadingReadsBuildTheState :
    (dueFor (flying (.loadRead (.settings 0)) (inPhase .loading)) (.loadRead (.settings 0))
      ∧ dueFor (flying (.loadRead (.image 1022)) (inPhase .loading)) (.loadRead (.image 1022))
      ∧ dueFor (flying (.loadRead (.image 1023)) (inPhase .loading)) (.loadRead (.image 1023))
      ∧ dueFor (flying (.loadRead (.settings 4)) (inPhase .loading)) (.loadRead (.settings 4))
      ∧ dueFor (flying (.loadRead (.settings 5)) (inPhase .loading)) (.loadRead (.settings 5)))
      ∧ base.fence.uNative ≤ (inUseRecord 1043450 0#8 .intact).line
      ∧ dataFormed (.partialOf Mask.empty) = false
      ∧ ((inUseRecord 5 1#8 .intact).line < base.fence.uNative ∧ dataFormed .intact = true ∧ remapEntry base 5 = none)
      ∧ (remapEntry (remapped .intact base) 5).isSome = true
      ∧ (base.tables.regions.length = 16 ∧ base.tables.classes.length = 4 ∧ (List.replicate 4 regionDefault).length = 4)
      ∧ (((inUseRecord 5 1#8 .intact).generation - 0#8).toNat = 1
        ∧ ((inUseRecord 5 127#8 .intact).generation - 0#8).toNat = 127
        ∧ ((inUseRecord 5 0#8 .intact).generation - 0#8).toNat = 0
        ∧ ((inUseRecord 5 128#8 .intact).generation - 0#8).toNat = 128) :=
  ⟨⟨due_of _ _ ⟨rfl, rfl⟩, due_of _ _ ⟨rfl, rfl⟩, due_of _ _ ⟨rfl, rfl⟩, due_of _ _ ⟨rfl, rfl⟩, due_of _ _ ⟨rfl, rfl⟩⟩, by decide,
    by decide, by decide, by decide, by decide, by decide⟩

/-- A part in LOADING that reads a metadata line. -/
def loadingLine (l : MetaLine) : State := flying (.loadRead l) (inPhase .loading)

theorem witness_Loading_pending : Loading (.settings 0) State.reset :=
  ⟨by decide, by decide, by decide, by decide, by decide, by decide, by decide, by decide, by decide⟩

theorem witness_Loading_inFlight : Loading (.image 1023) (loadingLine (.image 1023))
    ∧ untouchedFrom (loadBound (.image 1023)) (loadingLine (.image 1023)) = true :=
  ⟨⟨by decide, by decide, by decide, by decide, by decide, by decide, by decide, by decide, by decide⟩, by decide⟩

theorem witness_Loading_last : Loading (.settings 5) (loadingLine (.settings 5))
    ∧ (match step { loadingLine (.settings 5) with pending := [.settingsReadComplete .uncorrectable [] []] } with
        | .next t => t.metaCtl.phase == .readReady
        | _ => false) = true :=
  ⟨⟨by decide, by decide, by decide, by decide, by decide, by decide, by decide, by decide, by decide⟩, by decide⟩

theorem witness_FormattingProgramsTheMetadataArea :
    (idle base = true ∧ base.metaCtl.phase ≠ .unformatted)
      ∧ (idle (lockedAs .locked 0 (inPhase .unformatted)) = true
        ∧ lockRefusal (lockedAs .locked 0 (inPhase .unformatted)) = some .refusedLocked)
      ∧ ((faulty (inPhase .unformatted)).remap.fault = true ∧ (faulty (inPhase .unformatted)).fence.lock = .unlocked)
      ∧ ((inPhase .unformatted).fence.lock = .unlocked ∧ (inPhase .unformatted).remap.fault = false)
      ∧ (inPhase .formatting).link.work.all (fun o => !o.withdrawable) = true
      ∧ dueFor (flying (.formatProgram 1028) (busyWith .format (inPhase .formatting))) (.formatProgram 1028)
      ∧ dueFor (flying (.formatProgram 1029) (busyWith .format (inPhase .formatting))) (.formatProgram 1029) :=
  ⟨by decide, by decide, by decide, by decide, by decide, due_of _ _ ⟨rfl, rfl⟩, due_of _ _ ⟨rfl, rfl⟩⟩

theorem witness_FenceCommandsMoveAndReportTheFence :
    let s := withParams 1043450 1 0 0 0 base
    idle s = true ∧ (inPhase .unformatted).metaCtl.phase.starting = true
      ∧ lockRefusal (lockedAs .frozen 0 base) = some .refusedFrozen
      ∧ (s.metaCtl.phase.starting = false ∧ s.fence.lock = .unlocked)
      ∧ (1 ≤ paramValue s 0 ∧ paramValue s 0 ≤ s.fence.uNative ∧ paramValue s 1 = 1)
      ∧ paramValue (withParams 1 0 0 0 0 base) 1 = 0
      ∧ ¬1 ≤ paramValue (withParams 0 0 0 0 0 base) 0
      ∧ ¬paramValue (withParams 1043451 0 0 0 0 base) 0 ≤ base.fence.uNative
      ∧ (inPhase .geometryFault).metaCtl.phase = .geometryFault ∧ (faulty s).remap.fault = true := by decide

theorem witness_LockCommandsFollowTheLockState :
    idle base = true ∧ (base.mgmt.params.getD 0 0#32).getLsbD 0 = false
      ∧ ((withParams 1 0 0 0 0 base).mgmt.params.getD 0 0#32).getLsbD 0 = true
      ∧ idle (withParams 1 0 0 0 0 (inPhase .unformatted)) = true
      ∧ (lockedAs .frozen 0 base).fence.lock = .frozen ∧ (lockedAs .expired 5 base).fence.lock = .expired
      ∧ ((after (.fenceUnlock true) (lockedAs .frozen 0 base)).pins = { base.pins with maintEn := true }
        ∧ (after .fenceLock base).pins = base.pins)
      ∧ ((lockedAs .locked 3 base).fence.lock = .locked ∧ (lockedAs .locked 3 base).fence.refusals < 4)
      ∧ (lockedAs .locked 4 base).fence.refusals = 4 ∧ (faulty base).remap.fault = true
      ∧ base.remap.fault = false := by decide

theorem witness_LoadClassReplacesOneWorkingEntry :
    idle base = true ∧ base.tables.classes.length = 4 ∧ base.fence.lock = .unlocked
      ∧ (let s := withParams 3 1 1 8 0 base
        paramValue s 0 ≤ 3 ∧ paramValue s 1 ≤ 1 ∧ paramValue s 2 ≤ 1 ∧ 1 ≤ paramValue s 3 ∧ paramValue s 3 ≤ 8)
      ∧ paramValue (withParams 0 0 0 255 0 base) 3 = 255 ∧ ¬paramValue (withParams 4 0 0 1 0 base) 0 ≤ 3
      ∧ ¬((1 ≤ paramValue (withParams 0 0 0 9 0 base) 3 ∧ paramValue (withParams 0 0 0 9 0 base) 3 ≤ 8)
          ∨ paramValue (withParams 0 0 0 9 0 base) 3 = 255)
      ∧ (inPhase .formatting).metaCtl.phase = .formatting ∧ (lockedAs .locked 0 base).fence.lock = .locked
      ∧ (lockedAs .expired 5 base).fence.lock = .expired ∧ (lockedAs .frozen 0 base).fence.lock = .frozen := by decide

theorem witness_LoadRegionAndSaveSettings :
    idle base = true ∧ base.tables.regions.length = 16
      ∧ (let s := withParams 15 1043449 1043449 0x00000301 0 base
        paramValue s 0 ≤ 15 ∧ paramValue s 1 ≤ paramValue s 2 ∧ paramValue s 2 < s.fence.uNative
          ∧ ((s.mgmt.params.getD 3 0#32).extractLsb' 8 8).toNat ≤ 3)
      ∧ ¬paramValue (withParams 16 0 0 0 0 base) 0 ≤ 15
      ∧ ¬paramValue (withParams 0 0 1043450 0 0 base) 2 < base.fence.uNative
      ∧ base.metaCtl.phase.starting = false ∧ base.fence.lock = .unlocked ∧ (faulty base).remap.fault = true
      ∧ base.remap.fault = false ∧ (inPhase .loading).metaCtl.phase.starting = true
      ∧ lockRefusal (lockedAs .expired 5 base) = some .refusedExpired := by decide

theorem witness_WatchCommandsLoadAndArm :
    idle base = true ∧ base.watch.ranges.length = 8 ∧ base.watch.targets.length = 16
      ∧ base.metaCtl.phase ≠ .geometryFault ∧ idle (inPhase .geometryFault) = true
      ∧ (let s := withParams 7 66780799 66780799 0x1330 255 base
        paramValue s 0 ≤ 7 ∧ paramValue s 2 < 64 * s.fence.uNative
          ∧ ((s.mgmt.params.getD 3 0#32).extractLsb' 4 2).toNat = 3
          ∧ ((s.mgmt.params.getD 3 0#32).extractLsb' 8 2).toNat = 3
          ∧ ((s.mgmt.params.getD 3 0#32).extractLsb' 12 2).toNat = 1 ∧ paramValue s 4 ≤ 255)
      ∧ ¬paramValue (withParams 8 0 0 0x1330 0 base) 0 ≤ 7
      ∧ (let s := withParams 15 66780799 1 255 0 base
        paramValue s 0 ≤ 15 ∧ paramValue s 1 < 64 * s.fence.uNative ∧ paramValue s 2 ≤ 1 ∧ paramValue s 3 ≤ 255)
      ∧ ¬paramValue (withParams 16 0 0 0 0 base) 0 ≤ 15
      ∧ (1 ≤ paramValue (withParams 16 1 0 0 0 base) 0 ∧ paramValue (withParams 16 1 0 0 0 base) 0 ≤ 16
        ∧ paramValue (withParams 16 1 0 0 0 base) 1 ≤ 1)
      ∧ 16 < paramValue (withParams 17 0 0 0 0 base) 0 := by decide

theorem witness_WaitingCommandsCompleteOrAreCancelled :
    let fit := fun (s : State) m => s.buffer.entries.length ≤ 32 - m ∧ s.health.jobs.length ≤ m
    base.pins.porst = false ∧ base.mgmt.busy = none ∧ (inPhase .geometryFault).mgmt.busy = none
      ∧ base.buffer.entries = [] ∧ (holding [entry .pending]).buffer.entries ≠ []
      ∧ paramValue (withParams 3 0 0 0 0 base) 0 = 3
      ∧ (paramValue (withParams 4 0 0 0 0 base) 0 = 4 ∧ fit base 4 ∧ base.buffer.reserve ≠ 4)
      ∧ ¬fit (filled base) 4
      ∧ ((busyWith (.drainAll 1 0) base).mgmt.busy = some (.drainAll 1 0) ∧ ∀ e ∈ base.buffer.entries, e.target = false)
      ∧ (∃ e ∈ (holding [{ entry .pending with target := true }]).buffer.entries, e.target = true)
      ∧ (busyWith (.reserve 4) base).mgmt.busy = some (.reserve 4)
      ∧ (busyWith .header base).mgmt.busy = some .header
      ∧ 0x19 < (0x1A#8).toNat ∧ Instr.readLimits.wellFormed = true ∧ Instr.readLimits.commandCode = some 0x01#8 := by
  decide

theorem witness_RetireLineActsByTheFirstCase :
    let at5 := fun (s : State) => withParams 5 0 0 0 0 s
    idle base = true ∧ (inPhase .repairing).metaCtl.phase ≠ .fullReady
      ∧ base.fence.uNative ≤ paramValue (withParams 1043450 0 0 0 0 base) 0
      ∧ (isCandidate (withParams 100 0 0 0 0 (loaded 1 15)) 100 = true
        ∧ noDataPresent (withParams 100 0 0 0 0 (loaded 1 15)) 100 = false
        ∧ (loaded 1 15).remap.noData.length < 16)
      ∧ 16 ≤ (loaded 1 16).remap.noData.length
      ∧ (isCandidate (loaded 0 1) 200 = false ∧ noDataPresent (loaded 0 1) 200 = true)
      ∧ dataState (remapped .poisoned (at5 base)) 5 = .poisoned ∧ jobInFlight (relocating base) 5 = true
      ∧ (isCandidate (at5 (jobbed 16)) 5 = false ∧ noDataPresent (at5 (jobbed 16)) 5 = false
        ∧ dataState (at5 (jobbed 16)) 5 ≠ .poisoned ∧ jobInFlight (at5 (jobbed 16)) 5 = false
        ∧ jobQueued (at5 (jobbed 16)) 5 = true)
      ∧ (jobQueued (withParams 15 0 0 0 0 (jobbed 15)) 15 = false ∧ (jobbed 15).health.queue.length < 16)
      ∧ jobQueued (jobbed 16) 16 = false ∧ 16 ≤ (jobbed 16).health.queue.length := by decide

theorem witness_QueriesReportAndPatrolCommandsSet :
    idle base = true ∧ (inPhase .formatting).metaCtl.phase.starting = true ∧ base.metaCtl.phase.starting = false
      ∧ base.fence.uNative ≤ paramValue (withParams 1043450 0 0 0 0 base) 0
      ∧ (paramValue (withParams 1043449 0 0 0 0 base) 0 < base.fence.uNative ∧ remapEntry base 1043449 = none)
      ∧ (remapEntry (remapped .poisoned base) 5).isSome = true
      ∧ (4095 < paramValue (withParams 4096 0 0 0 0 base) 0 ∧ paramValue (withParams 4095 0 0 0 0 base) 0 ≤ 4095)
      ∧ poolState base 4095 = .free ∧ poolState (deadSlots 1 base) 0 = .dead
      ∧ (poolState (remapped .poisoned base) 0 = .inUse ∧ (entryOfSlot (remapped .poisoned base) 0).isSome = true)
      ∧ (paramValue (withParams 2 65535 0 0 0 base) 0 = 2 ∧ paramValue (withParams 2 65535 0 0 0 base) 1 ≤ 65535)
      ∧ 2 < paramValue (withParams 3 1 0 0 0 base) 0 ∧ 65535 < paramValue (withParams 1 65536 0 0 0 base) 1
      ∧ (inPhase .geometryFault).metaCtl.phase = .geometryFault
      ∧ (loaded 32 0).health.candidates[31]? = some { line := 131, source := .read }
      ∧ (loaded 32 0).health.candidates.length ≤ paramValue (withParams 32 0 0 0 0 (loaded 32 0)) 0
      ∧ paramValue (withParams 65535 0 0 0 0 base) 0 ≤ 65535 := by decide

theorem witness_EventsStayWellFormed :
    eventsOk (loaded 31 0) = true ∧ step (loaded 31 0) = .next (tick (loaded 31 0)) := ⟨by decide, rfl⟩

theorem witness_SettingsStayWellFormed :
    let s : State := { withParams 1000 0 0 0 0 base with pending := [.setFence] }
    let classed := fun n => ({ base with tables := { base.tables with classes := [{ classDefault with threshold := .bits n }] } } : State)
    let aimed := fun n => ({ base with watch := { base.watch with targets := [{ Target.atRelease with addr := n }] } } : State)
    let ranged := fun first last =>
      ({ base with
         watch := { base.watch with ranges := [{ RangeWatch.cleared with first := first, last := last }] } } : State)
    (shapesOk s = true ∧ sequenceOk s = true ∧ regionsOk s = true ∧ classesOk s = true ∧ watchesOk s = true
      ∧ fencesOk s = true ∧ lockOk s = true
      ∧ (match step s with | .next t => t.fence.current == 1000 | _ => false) = true)
      ∧ (classesOk (classed 0) = false ∧ classesOk (classed 1) = true ∧ classesOk (classed 8) = true
        ∧ classesOk (classed 9) = false ∧ classesOk (throughClass base) = true)
      ∧ (watchesOk (aimed 66780799) = true ∧ watchesOk (aimed 66780800) = false)
      ∧ (watchesOk (ranged 66780799 66780799) = true ∧ watchesOk (ranged 1 0) = false
        ∧ watchesOk (ranged 0 66780800) = false) := by decide

theorem witness_QueuesAndSparseTablesStayCanonical :
    let s : State := { withParams 20 0 0 0 0 (jobbed 15) with pending := [.retireLine] }
    queuesOk s = true ∧ sparseOk s = true
      ∧ (match step s with | .next t => t.health.queue.length == 16 | _ => false) = true := by decide

theorem witness_BufferStaysWithinItsRules :
    let s : State := { holding [entry .pending] with pending := [.drainSelect] }
    bufferOk s = true ∧ reserveOk s = true
      ∧ (match step s with | .next t => t.buffer.drain.isSome | _ => false) = true := by decide

theorem witness_SparePoolStaysAPartition :
    let s : State := { serving none [reassign] base with pending := [.reassignServe] }
    let l : State :=
      { flying (.loadRead (.image 1023)) (inPhase .loading) with pending := [.imageReadComplete .uncorrectable []] }
    (poolOk s = true ∧ sparseOk s = true ∧ (loadInFlight s).isNone = true
      ∧ (match step s with | .next t => t.remap.serving == some (.spare 0) | _ => false) = true)
      ∧ poolOk l = true ∧ sparseOk l = true ∧ loadInFlight l = some (.image 1023) ∧ l.remap.serving = none
      ∧ untouchedFrom (4 * 1023) l = true
      ∧ (match step l with | .next t => t.remap.dead == [4092, 4093, 4094, 4095] | _ => false) = true := by decide

end Sys2Proof.Tests
end

section
namespace Sys2Proof.Machine

/-! ### A command judged by phase and map lock, and completed in the same step (R45, R173) -/

/-- The state in which a taken command is carried out: its code stands in COMMAND and the parameters are copied (R173);
`takeCommand_idle` hands a command this state. -/
def taken (code : BitVec 8) (s : State) : State :=
  { s with mgmt := { s.mgmt with command := code, copy := s.mgmt.params } }

@[simp] theorem taken_fence (code : BitVec 8) (s : State) : (taken code s).fence = s.fence := rfl

@[simp] theorem taken_tables (code : BitVec 8) (s : State) : (taken code s).tables = s.tables := rfl

@[simp] theorem taken_metaCtl (code : BitVec 8) (s : State) : (taken code s).metaCtl = s.metaCtl := rfl

/-- The parameters a taken command reads are those that stood when it was taken (R173). -/
@[simp] theorem paramNat_taken (code : BitVec 8) (s : State) (n : Nat) : paramNat (taken code s) n = paramValue s n := rfl

theorem starting_iff (p : Phase) :
    p.starting = true ↔ p = .geometryFault ∨ p = .loading ∨ p = .unformatted ∨ p = .formatting := by
  cases p <;> simp [Phase.starting]

theorem underLock_of_starting {s : State} (h : s.metaCtl.phase.starting = true) (carry : State → State) :
    underLock carry s = complete .notReady s := if_pos h

theorem underLock_of_refusal {s : State} {r : ResultCode} (h : ¬s.metaCtl.phase.starting = true)
    (hr : lockRefusal s = some r) (carry : State → State) : underLock carry s = complete r s := by
  rw [underLock, if_neg h, hr]

theorem underLock_of_unlocked {s : State} (h : ¬s.metaCtl.phase.starting = true) (hl : s.fence.lock = .unlocked)
    (carry : State → State) : underLock carry s = carry s := by
  rw [underLock, if_neg h, lockRefusal, hl]

/-- A taken command that completes with no data writes the Management Link and the events alone (R173). -/
theorem complete_taken_keeps (code : BitVec 8) (r : ResultCode) (s : State) :
    Keeps [.mgmt, .events] s (complete r (taken code s)) := by
  constructor <;> simp [taken]

theorem complete_taken_completed (code : BitVec 8) (r : ResultCode) (s : State) :
    Completed code r [] s (complete r (taken code s)) := ⟨rfl, rfl⟩

/-! ### The class entry of LOAD_CLASS (R41, R46, R175) -/

/-- The write mode, patrol and threshold codes that name a class entry (R41, R175). -/
def ClassCodes (mode patrol threshold : Nat) : Prop :=
  mode ≤ 1 ∧ patrol ≤ 1 ∧ ((1 ≤ threshold ∧ threshold ≤ 8) ∨ threshold = 255)

/-- The class entry that well-formed codes name (R175); `classParam_of_codes` ties it to the decoder. -/
def classOfCodes (mode patrol threshold : Nat) : ClassEntry :=
  { mode := if mode = 0 then .posted else .through
    patrol := if patrol = 0 then .included else .excluded
    threshold := if threshold = 255 then .off else .bits threshold }

theorem writeModeOf_eq (n : Nat) :
    writeModeOf n = if n ≤ 1 then some (if n = 0 then .posted else .through) else none := by
  match n with
  | 0 => rfl
  | 1 => rfl
  | n + 2 => simp [writeModeOf]

theorem patrolFieldOf_eq (n : Nat) :
    patrolFieldOf n = if n ≤ 1 then some (if n = 0 then .included else .excluded) else none := by
  match n with
  | 0 => rfl
  | 1 => rfl
  | n + 2 => simp [patrolFieldOf]

theorem thresholdOf_eq (n : Nat) :
    thresholdOf n = if (1 ≤ n ∧ n ≤ 8) ∨ n = 255 then some (if n = 255 then .off else .bits n) else none := by
  by_cases off : n = 255
  · simp [thresholdOf, off]
  · simp [thresholdOf, off]

theorem classParam_of_codes {s : State} (h : ClassCodes (paramNat s 1) (paramNat s 2) (paramNat s 3)) :
    classParam s = some (classOfCodes (paramNat s 1) (paramNat s 2) (paramNat s 3)) := by
  obtain ⟨mode, patrol, threshold⟩ := h
  rw [classParam, writeModeOf_eq, if_pos mode, patrolFieldOf_eq, if_pos patrol, thresholdOf_eq, if_pos threshold]
  rfl

theorem classParam_of_not_codes {s : State} (h : ¬ClassCodes (paramNat s 1) (paramNat s 2) (paramNat s 3)) :
    classParam s = none := by
  rw [classParam, writeModeOf_eq, patrolFieldOf_eq, thresholdOf_eq]
  by_cases mode : paramNat s 1 ≤ 1
  · by_cases patrol : paramNat s 2 ≤ 1
    · have threshold : ¬((1 ≤ paramNat s 3 ∧ paramNat s 3 ≤ 8) ∨ paramNat s 3 = 255) := fun t => h ⟨mode, patrol, t⟩
      rw [if_pos mode, if_pos patrol, if_neg threshold]
    · rw [if_pos mode, if_neg patrol]
  · rw [if_neg mode]

/-- Step 3 of LOAD_CLASS: an index above 3 or a code out of its range is refused, with nothing placed (R46). -/
theorem loadClass_refused {s : State}
    (h : ¬(paramNat s 0 ≤ 3 ∧ ClassCodes (paramNat s 1) (paramNat s 2) (paramNat s 3))) :
    loadClass s = complete .badParameter s := by
  by_cases codes : ClassCodes (paramNat s 1) (paramNat s 2) (paramNat s 3)
  · have index : 3 < paramNat s 0 := Nat.lt_of_not_le fun i => h ⟨i, codes⟩
    rw [loadClass, classParam_of_codes codes]
    exact if_pos index
  · rw [loadClass, classParam_of_not_codes codes]

/-- The working class table with one entry replaced; the stored copy stays (R46). -/
def placeClass (i : Nat) (c : ClassEntry) (s : State) : State :=
  { s with tables := { s.tables with classes := s.tables.classes.set i c } }

theorem loadClass_placed {s : State} (index : paramNat s 0 ≤ 3)
    (codes : ClassCodes (paramNat s 1) (paramNat s 2) (paramNat s 3)) :
    loadClass s =
      complete .done (placeClass (paramNat s 0) (classOfCodes (paramNat s 1) (paramNat s 2) (paramNat s 3)) s) := by
  rw [loadClass, classParam_of_codes codes]
  exact if_neg (Nat.not_lt.mpr index)

/-- LOAD_CLASS on an idle Command Engine is judged under the map lock (R45, R46). -/
theorem exec_loadClass_idle {s : State} (h : idle s = true) :
    exec .loadClass s = .next (underLock loadClass (taken 0x07#8 s)) :=
  congrArg Host.Outcome.next (takeCommand_idle h 0x07#8 (underLock loadClass))

/-- What a LOAD_CLASS that places its entry changes: the working entry at the index, and the command's completion. -/
theorem complete_placeClass (code : BitVec 8) (i : Nat) (c : ClassEntry) (s : State) (h : i < s.tables.classes.length) :
    let t := complete .done (placeClass i c (taken code s))
    Keeps [.mgmt, .events, .tables] s t ∧ Completed code .done [] s t
      ∧ t.tables = { s.tables with classes := t.tables.classes } ∧ t.tables.classes.length = s.tables.classes.length
      ∧ t.tables.classes[i]? = some c ∧ ∀ n, n ≠ i → t.tables.classes[n]? = s.tables.classes[n]? := by
  intro t
  have tables : t.tables = { s.tables with classes := s.tables.classes.set i c } := rfl
  refine ⟨?keeps, ⟨rfl, rfl⟩, ?_⟩
  case keeps => constructor <;> simp [t, placeClass, taken]
  rw [tables]
  exact ⟨rfl, List.length_set, List.getElem?_set_self h, fun n other => List.getElem?_set_ne other.symm⟩

/-- Settles O49: the phase, the map lock and the parameters are judged in this order, and each outcome is one equation of
`underLock` or `loadClass`. -/
theorem loadClassReplacesOneWorkingEntry : Obligations.LoadClassReplacesOneWorkingEntry := by
  intro s ready size i m p k formed refused early
  have executed := exec_loadClass_idle ready
  have starting : early ↔ (taken 0x07#8 s).metaCtl.phase.starting = true := (starting_iff s.metaCtl.phase).symm
  have refusal : ∀ r, underLock loadClass (taken 0x07#8 s) = complete r (taken 0x07#8 s) → refused r := fun r h =>
    ⟨_, h ▸ executed, complete_taken_keeps _ r s, complete_taken_completed _ r s⟩
  have locked : ∀ r, ¬early → lockRefusal (taken 0x07#8 s) = some r → refused r := fun r h hr =>
    refusal r (underLock_of_refusal (mt starting.mpr h) hr loadClass)
  refine ⟨fun h => refusal _ (underLock_of_starting (starting.mp h) loadClass), fun h hl => locked _ h ?locked,
    fun h hl => locked _ h ?expired, fun h hl => locked _ h ?frozen, fun h hl bad => ?bad, fun h hl good => ?good⟩
  case locked | expired | frozen => simp [lockRefusal, hl]
  case bad =>
    refine refusal _ ?_
    rw [underLock_of_unlocked (mt starting.mpr h) hl, loadClass_refused (s := taken 0x07#8 s) bad]
  case good =>
    obtain ⟨index, codes⟩ := good
    have placed : exec .loadClass s = .next (complete .done (placeClass i (classOfCodes m p k) (taken 0x07#8 s))) := by
      rw [executed, underLock_of_unlocked (mt starting.mpr h) hl, loadClass_placed (s := taken 0x07#8 s) index codes]
      rfl
    have inTable : i < s.tables.classes.length := size ▸ Nat.lt_succ_of_le index
    obtain ⟨keeps, completed, tables, length, new, others⟩ := complete_placeClass 0x07#8 i (classOfCodes m p k) s inTable
    exact ⟨_, placed, keeps, completed, tables, length.trans size, new, others⟩

end Sys2Proof.Machine
end

section
namespace Sys2Proof.Machine

/-! ### GROUP_ENABLE through the shared operations (R180, R182, R183)

An operation posts flags, writes incidents or leaves the events alone, and none of these places GROUP_ENABLE. There is
one rule for each operation of which Laws/Frame.lean does not say that it leaves the events alone, in the order of the
model. -/

@[simp] theorem foldl_groupEnable {α : Type} (f : State → α → State)
    (keeps : ∀ t a, (f t a).events.groupEnable = t.events.groupEnable) (l : List α) (s : State) :
    (l.foldl f s).events.groupEnable = s.events.groupEnable := by
  induction l generalizing s with
  | nil => rfl
  | cons a l ih => rw [List.foldl_cons, ih, keeps]

@[simp] theorem writeIncident_groupEnable (i : Incident) (s : State) :
    (writeIncident i s).events.groupEnable = s.events.groupEnable := by
  unfold writeIncident
  split
  · rfl
  · exact events_post_groupEnable _ _

@[simp] theorem events_pop_groupEnable (e : Events) : e.pop.groupEnable = e.groupEnable := by
  unfold Events.pop
  split <;> rfl

@[simp] theorem postThresholds_groupEnable (before : Nat) (s : State) :
    (postThresholds before s).events.groupEnable = s.events.groupEnable := by
  rw [postThresholds_eq]
  dsimp only
  split_ifs <;> simp

@[simp] theorem killSlot_groupEnable (slot : Nat) (s : State) :
    (killSlot slot s).events.groupEnable = s.events.groupEnable := by
  simp [killSlot]

@[simp] theorem takeCommand_groupEnable {carry : State → State}
    (keeps : ∀ s, (carry s).events.groupEnable = s.events.groupEnable) (code : BitVec 8) (s : State) :
    (takeCommand code carry s).events.groupEnable = s.events.groupEnable := by
  unfold takeCommand
  split_ifs
  · rfl
  · simp
  · exact keeps _

@[simp] theorem advanceRepair_groupEnable (s : State) :
    (advanceRepair s).events.groupEnable = s.events.groupEnable := by
  unfold advanceRepair
  split
  · split
    · simp
    · split <;> simp
  · rfl

@[simp] theorem enterRepairing_groupEnable (s : State) :
    (enterRepairing s).events.groupEnable = s.events.groupEnable := by
  simp [enterRepairing]

@[simp] theorem settle_groupEnable (s : State) : (settle s).events.groupEnable = s.events.groupEnable := by
  rw [settle_eq, stopGrantTimer_eq]
  dsimp only
  split
  · exact enterRepairing_groupEnable s
  · rfl

/-! ### GROUP_ENABLE through the Media Health Unit (R124, R129) -/

@[simp] theorem candidateLost_groupEnable (line : Nat) (s : State) :
    (candidateLost line s).events.groupEnable = s.events.groupEnable := by
  simp [candidateLost]

@[simp] theorem requestNoData_groupEnable (line : Nat) (origin : Origin) (s : State) :
    (requestNoData line origin s).events.groupEnable = s.events.groupEnable := by
  unfold requestNoData
  split_ifs <;> simp

@[simp] theorem offer_groupEnable (line : Nat) (source : Source) (s : State) :
    (offer line source s).events.groupEnable = s.events.groupEnable := by
  unfold offer
  dsimp only
  split_ifs <;> simp

@[simp] theorem need_groupEnable (line : Nat) (reason : Reason) (s : State) :
    (need line reason s).events.groupEnable = s.events.groupEnable := by
  unfold need
  split_ifs <;> simp

/-! ### GROUP_ENABLE through courses and the work list (R66, R106 to R117) -/

@[simp] theorem reportLoss_groupEnable (e : SystemEntry) (cause : LossCause) (s : State) :
    (reportLoss e cause s).events.groupEnable = s.events.groupEnable := by
  unfold reportLoss
  dsimp only
  split <;> simp

@[simp] theorem endDrain_groupEnable (e : Ending) (s : State) :
    (endDrain e s).events.groupEnable = s.events.groupEnable := by
  unfold endDrain
  split
  · rfl
  · dsimp only
    split <;> simp

@[simp] theorem endCourse_groupEnable (w : Writer) (e : Ending) (s : State) :
    (endCourse w e s).events.groupEnable = s.events.groupEnable := by
  cases w <;> simp [endCourse]

@[simp] theorem recordOrEnd_groupEnable (w : Writer) (c : Course) (s : State) :
    (recordOrEnd w c s).events.groupEnable = s.events.groupEnable := by
  unfold recordOrEnd
  split <;> simp

@[simp] theorem conclude_groupEnable (v : Verdict) (s : State) :
    (conclude v s).events.groupEnable = s.events.groupEnable := by
  unfold conclude
  split
  · rfl
  · dsimp only
    split
    case h_1 => split <;> simp
    case h_5 => split <;> simp
    all_goals simp

@[simp] theorem judgeReassign_groupEnable (s : State) :
    (judgeReassign s).events.groupEnable = s.events.groupEnable := by
  unfold judgeReassign
  split
  · simp
  · split
    · simp
    · split <;> simp

@[simp] theorem spareDone_groupEnable (slot : Nat) (ok : Bool) (s : State) :
    (spareDone slot ok s).events.groupEnable = s.events.groupEnable := by
  unfold spareDone
  dsimp only
  split_ifs <;> simp

@[simp] theorem goLive_groupEnable (slot : Nat) (s : State) :
    (goLive slot s).events.groupEnable = s.events.groupEnable := by
  unfold goLive
  split
  · rfl
  · next line _ _ _ =>
    cases remapEntry s line with
    | none => simp
    | some former =>
      dsimp only
      split <;> simp

@[simp] theorem beginRecording_groupEnable (line : Nat) (known : Mask) (s : State) :
    (beginRecording line known s).events.groupEnable = s.events.groupEnable := by
  unfold beginRecording
  split
  · simp
  · dsimp only
    split <;> simp

@[simp] theorem storageToReassign_groupEnable (s : State) :
    (storageToReassign s).events.groupEnable = s.events.groupEnable := by
  unfold storageToReassign
  split <;> simp

@[simp] theorem serveStorage_groupEnable (s : State) :
    (serveStorage s).events.groupEnable = s.events.groupEnable := by
  unfold serveStorage
  split
  · split_ifs <;> simp
  · rfl

@[simp] theorem storageDone_groupEnable (ok : Bool) (s : State) :
    (storageDone ok s).events.groupEnable = s.events.groupEnable := by
  unfold storageDone
  split
  · split <;> simp
  · rfl

@[simp] theorem imageDone_groupEnable (ok : Bool) (s : State) :
    (imageDone ok s).events.groupEnable = s.events.groupEnable := by
  unfold imageDone
  split
  case h_1 | h_2 => cases ok <;> simp
  all_goals simp

@[simp] theorem imageWithdrawn_groupEnable (s : State) :
    (imageWithdrawn s).events.groupEnable = s.events.groupEnable := by
  unfold imageWithdrawn
  split <;> simp

/-! ### GROUP_ENABLE through metadata programs and the metadata fault (R119, R157, R167) -/

@[simp] theorem settingsFailed_groupEnable (s : State) :
    (settingsFailed s).events.groupEnable = s.events.groupEnable := by
  unfold settingsFailed
  split <;> simp

@[simp] theorem withdrawn_groupEnable (t : MetaLine) (a : MetaAsker) (s : State) :
    (withdrawn t a s).events.groupEnable = s.events.groupEnable := by
  cases a <;> simp [withdrawn]

@[simp] theorem withdrawOp_groupEnable (o : ArrayOp) (s : State) :
    (withdrawOp o s).events.groupEnable = s.events.groupEnable := by
  unfold withdrawOp
  split <;> simp

@[simp] theorem setFault_groupEnable (s : State) : (setFault s).events.groupEnable = s.events.groupEnable := by
  unfold setFault
  dsimp only
  split_ifs <;> simp

@[simp] theorem settingsDone_groupEnable (s : State) :
    (settingsDone s).events.groupEnable = s.events.groupEnable := by
  unfold settingsDone
  split
  case h_3 => split <;> simp
  all_goals simp

@[simp] theorem deliver_groupEnable (ok : Bool) (a : MetaAsker) (s : State) :
    (deliver ok a s).events.groupEnable = s.events.groupEnable := by
  cases a <;> cases ok <;> simp [deliver]

@[simp] theorem metaProgramDone_groupEnable (t : MetaLine) (askers : List MetaAsker) (ok : Bool) (s : State) :
    (metaProgramDone t askers ok s).events.groupEnable = s.events.groupEnable := by
  cases ok <;> simp [metaProgramDone]

/-! ### GROUP_ENABLE through AGNT and the grant wait (R85, R89, R91) -/

@[simp] theorem grantReturns_groupEnable (s : State) :
    (grantReturns s).events.groupEnable = s.events.groupEnable := by
  unfold grantReturns
  dsimp only
  split <;> simp

@[simp] theorem grantFalls_groupEnable (s : State) : (grantFalls s).events.groupEnable = s.events.groupEnable := by
  unfold grantFalls
  split <;> simp

@[simp] theorem expire_groupEnable (s : State) : (expire s).events.groupEnable = s.events.groupEnable := by
  simp [expire]

/-! ### GROUP_ENABLE through intake (R9 to R20, R145 to R151) -/

@[simp] theorem watchStep_groupEnable (p : Port) (tx : Transaction) (s : State) :
    (watchStep p tx s).events.groupEnable = s.events.groupEnable := by
  unfold watchStep
  split <;> simp

@[simp] theorem sequenceStep_groupEnable (p : Port) (tx : Transaction) (s : State) :
    (sequenceStep p tx s).events.groupEnable = s.events.groupEnable := by
  unfold sequenceStep
  split
  · rfl
  · split
    · split <;> simp
    · split <;> simp

@[simp] theorem intakePosted_groupEnable (p : Port) (t : Taken) (s : State) :
    (intakePosted p t s).events.groupEnable = s.events.groupEnable := by
  unfold intakePosted
  dsimp only
  split
  · next placed h =>
    split at h
    · obtain ⟨-, -, -, -, -, -, -, -, -, -, events, -⟩ := placePosted_frame _ _ _ _ _ h
      simp [events]
    · cases h
  · split <;> simp

@[simp] theorem intakeThrough_groupEnable (p : Port) (t : Taken) (s : State) :
    (intakeThrough p t s).events.groupEnable = s.events.groupEnable := by
  unfold intakeThrough
  dsimp only
  split_ifs <;> simp

@[simp] theorem intakeWrite_groupEnable (p : Port) (t : Taken) (cls : Nat) (s : State) :
    (intakeWrite p t cls s).events.groupEnable = s.events.groupEnable := by
  unfold intakeWrite
  split <;> simp

@[simp] theorem checkWatches_groupEnable (p : Port) (t : Taken) (cls : Nat) (s : State) :
    (checkWatches p t cls s).events.groupEnable = s.events.groupEnable := by
  unfold checkWatches
  dsimp only
  split
  · simp
  · split
    · simp
    · split <;> simp

@[simp] theorem checkTransaction_groupEnable (p : Port) (t : Taken) (s : State) :
    (checkTransaction p t s).events.groupEnable = s.events.groupEnable := by
  unfold checkTransaction
  dsimp only
  split_ifs <;> simp

@[simp] theorem runIntake_groupEnable (p : Port) (s : State) :
    (runIntake p s).events.groupEnable = s.events.groupEnable := by
  unfold runIntake
  split
  · rfl
  · split <;> simp

/-! ### GROUP_ENABLE through the pins, the timers and the patrol (R6, R14, R139, R166) -/

@[simp] theorem systemReset_groupEnable (s : State) :
    (systemReset s).events.groupEnable = s.events.groupEnable := by
  simp [systemReset]

@[simp] theorem powerWarning_groupEnable (s : State) :
    (powerWarning s).events.groupEnable = s.events.groupEnable := by
  simp [powerWarning]

@[simp] theorem endPass_groupEnable (s : State) : (endPass s).events.groupEnable = s.events.groupEnable := by
  simp [endPass]

@[simp] theorem patrolStep_groupEnable (s : State) : (patrolStep s).events.groupEnable = s.events.groupEnable := by
  unfold patrolStep
  dsimp only
  split
  · simp
  · split <;> simp

@[simp] theorem patrolExpiry_groupEnable (s : State) :
    (patrolExpiry s).events.groupEnable = s.events.groupEnable := by
  unfold patrolExpiry
  dsimp only
  split_ifs <;> simp

/-! ### GROUP_ENABLE through loading and formatting (R159 to R165) -/

@[simp] theorem headerDone_groupEnable (ecc : Ecc) (h : HeaderImage) (s : State) :
    (headerDone ecc h s).events.groupEnable = s.events.groupEnable := by
  unfold headerDone
  split
  · dsimp only
    split <;> simp
  · rfl

@[simp] theorem damagedImage_groupEnable (k : Nat) (s : State) :
    (damagedImage k s).events.groupEnable = s.events.groupEnable := by
  simp [damagedImage]

@[simp] theorem imageLoaded_groupEnable (s : State) :
    (imageLoaded s).events.groupEnable = s.events.groupEnable := by
  unfold imageLoaded
  dsimp only
  split_ifs <;> simp

@[simp] theorem imageReadDone_groupEnable (ecc : Ecc) (records : List RawRecord) (s : State) :
    (imageReadDone ecc records s).events.groupEnable = s.events.groupEnable := by
  unfold imageReadDone
  split
  · dsimp only
    split_ifs <;> simp
  · rfl

@[simp] theorem settingsReadDone_groupEnable (ecc : Ecc) (classes : List RawClass) (regions : List RegionEntry)
    (s : State) : (settingsReadDone ecc classes regions s).events.groupEnable = s.events.groupEnable := by
  unfold settingsReadDone
  split
  · dsimp only [enterReadReady]
    split_ifs <;> simp
  · rfl

@[simp] theorem formatDone_groupEnable (ok : Bool) (s : State) :
    (formatDone ok s).events.groupEnable = s.events.groupEnable := by
  unfold formatDone
  split
  · rfl
  · dsimp only [formatFails, formatEnds]
    split_ifs <;> simp

/-! ### GROUP_ENABLE through the completions of array operations (R18, R62, R109, R133, R140) -/

@[simp] theorem correctedNeed_groupEnable (line : Nat) (reason : Reason) (ecc : Ecc) (s : State) :
    (correctedNeed line reason ecc s).events.groupEnable = s.events.groupEnable := by
  unfold correctedNeed
  split
  · split <;> simp
  · rfl
  · rfl

@[simp] theorem readDone_groupEnable (ecc : Ecc) (data : LineData) (s : State) :
    (readDone ecc data s).events.groupEnable = s.events.groupEnable := by
  unfold readDone
  split
  · rfl
  · dsimp only [readableReport]
    split_ifs <;> simp

@[simp] theorem programDone_groupEnable (ok : Bool) (s : State) :
    (programDone ok s).events.groupEnable = s.events.groupEnable := by
  unfold programDone
  split
  · split
    · rfl
    · unfold programmed
      split_ifs <;> simp
  · split <;> simp

@[simp] theorem verifyDone_groupEnable (ecc : Ecc) (s : State) :
    (verifyDone ecc s).events.groupEnable = s.events.groupEnable := by
  unfold verifyDone
  split
  · rfl
  · split
    · rfl
    · split <;> simp

@[simp] theorem spareProgramDone_groupEnable (ok : Bool) (s : State) :
    (spareProgramDone ok s).events.groupEnable = s.events.groupEnable := by
  unfold spareProgramDone
  split <;> simp

@[simp] theorem metaDone_groupEnable (named : MetaLine → List MetaAsker → Bool) (ok : Bool) (s : State) :
    (metaDone named ok s).events.groupEnable = s.events.groupEnable := by
  unfold metaDone
  split
  · rfl
  · split <;> simp

@[simp] theorem sourceDone_groupEnable (ecc : Ecc) (data : LineData) (s : State) :
    (sourceDone ecc data s).events.groupEnable = s.events.groupEnable := by
  unfold sourceDone
  split
  · rfl
  · dsimp only
    split <;> simp

@[simp] theorem patrolDone_groupEnable (ecc : Ecc) (s : State) :
    (patrolDone ecc s).events.groupEnable = s.events.groupEnable := by
  unfold patrolDone
  split
  · rfl
  · unfold patrolReport
    split_ifs <;> simp

/-! ### GROUP_ENABLE through the part's own steps (R69, R76, R106) -/

@[simp] theorem serveReassign_groupEnable (s : State) :
    (serveReassign s).events.groupEnable = s.events.groupEnable := by
  unfold serveReassign
  split <;> simp

@[simp] theorem serveMergeFail_groupEnable (s : State) :
    (serveMergeFail s).events.groupEnable = s.events.groupEnable := by
  unfold serveMergeFail
  split <;> simp

@[simp] theorem serveRecording_groupEnable (s : State) :
    (serveRecording s).events.groupEnable = s.events.groupEnable := by
  unfold serveRecording
  split <;> simp

@[simp] theorem takeReserve_groupEnable (n : Nat) (s : State) :
    (takeReserve n s).events.groupEnable = s.events.groupEnable := by
  simp [takeReserve]

@[simp] theorem closeReserveWait_groupEnable (s : State) :
    (closeReserveWait s).events.groupEnable = s.events.groupEnable := by
  unfold closeReserveWait
  split
  · rfl
  · split <;> simp

@[simp] theorem endDrainAll_groupEnable (r : ResultCode) (taken discarded : Nat) (s : State) :
    (endDrainAll r taken discarded s).events.groupEnable = s.events.groupEnable := by
  simp [endDrainAll]

@[simp] theorem closeDrainAll_groupEnable (s : State) :
    (closeDrainAll s).events.groupEnable = s.events.groupEnable := by
  unfold closeDrainAll
  split
  · split <;> simp
  · rfl

/-! ### GROUP_ENABLE through the command codes (R173) -/

/-- A command judged by the phase and the map lock (R30) keeps GROUP_ENABLE where its meaning does. -/
theorem underLock_groupEnable {carry : State → State}
    (keeps : ∀ s, (carry s).events.groupEnable = s.events.groupEnable) (s : State) :
    (underLock carry s).events.groupEnable = s.events.groupEnable := by
  unfold underLock
  split
  · simp
  · split
    · simp
    · exact keeps s

theorem outsideGeometryFault_groupEnable {carry : State → State}
    (keeps : ∀ s, (carry s).events.groupEnable = s.events.groupEnable) (s : State) :
    (outsideGeometryFault carry s).events.groupEnable = s.events.groupEnable := by
  unfold outsideGeometryFault
  split
  · simp
  · exact keeps s

theorem inService_groupEnable {carry : State → State}
    (keeps : ∀ s, (carry s).events.groupEnable = s.events.groupEnable) (s : State) :
    (inService carry s).events.groupEnable = s.events.groupEnable := by
  unfold inService
  split
  · simp
  · exact keeps s

@[simp] theorem storeHeader_groupEnable (s : State) :
    (storeHeader s).events.groupEnable = s.events.groupEnable := by
  simp [storeHeader]

theorem setFence_groupEnable (s : State) : (setFence s).events.groupEnable = s.events.groupEnable := by
  unfold setFence
  dsimp only
  split_ifs <;> simp

@[simp] theorem storeLockAtStart_groupEnable (value : Bool) (s : State) :
    (storeLockAtStart value s).events.groupEnable = s.events.groupEnable := by
  unfold storeLockAtStart
  split_ifs <;> simp

theorem fenceLock_groupEnable (s : State) : (fenceLock s).events.groupEnable = s.events.groupEnable := by
  unfold fenceLock
  split
  · simp
  · split <;> simp

@[simp] theorem countRefusal_groupEnable (s : State) :
    (countRefusal s).events.groupEnable = s.events.groupEnable := by
  unfold countRefusal
  dsimp only
  split <;> simp

theorem fenceUnlock_groupEnable (s : State) : (fenceUnlock s).events.groupEnable = s.events.groupEnable := by
  unfold fenceUnlock
  split
  · simp
  · split
    case h_3 => split <;> simp
    all_goals simp

theorem fenceFreeze_groupEnable (s : State) : (fenceFreeze s).events.groupEnable = s.events.groupEnable := by
  unfold fenceFreeze
  split <;> simp

theorem loadRegion_groupEnable (s : State) : (loadRegion s).events.groupEnable = s.events.groupEnable := by
  unfold loadRegion
  split <;> simp

theorem loadClass_groupEnable (s : State) : (loadClass s).events.groupEnable = s.events.groupEnable := by
  unfold loadClass
  split
  · simp
  · split <;> simp

theorem saveSettings_groupEnable (s : State) : (saveSettings s).events.groupEnable = s.events.groupEnable := by
  unfold saveSettings
  split <;> simp

theorem loadRange_groupEnable (s : State) : (loadRange s).events.groupEnable = s.events.groupEnable := by
  unfold loadRange
  split
  · simp
  · split <;> simp

theorem loadTarget_groupEnable (s : State) : (loadTarget s).events.groupEnable = s.events.groupEnable := by
  unfold loadTarget
  split
  · simp
  · split <;> simp

theorem sequenceSet_groupEnable (s : State) : (sequenceSet s).events.groupEnable = s.events.groupEnable := by
  unfold sequenceSet
  split <;> simp

theorem drainAll_groupEnable (s : State) : (drainAll s).events.groupEnable = s.events.groupEnable := by
  unfold drainAll
  split <;> simp

theorem setReserve_groupEnable (s : State) : (setReserve s).events.groupEnable = s.events.groupEnable := by
  unfold setReserve
  dsimp only
  split_ifs <;> simp

@[simp] theorem retireCandidate_groupEnable (line : Nat) (s : State) :
    (retireCandidate line s).events.groupEnable = s.events.groupEnable := by
  unfold retireCandidate
  split <;> simp

@[simp] theorem retireLine_groupEnable (line : Nat) (s : State) :
    (retireLine line s).events.groupEnable = s.events.groupEnable := by
  unfold retireLine
  split_ifs <;> simp

theorem retireJudged_groupEnable (s : State) : (retireJudged s).events.groupEnable = s.events.groupEnable := by
  unfold retireJudged
  split_ifs <;> simp

theorem readRemap_groupEnable (s : State) : (readRemap s).events.groupEnable = s.events.groupEnable := by
  unfold readRemap
  dsimp only
  split
  · simp
  · split <;> simp

theorem readSlot_groupEnable (s : State) : (readSlot s).events.groupEnable = s.events.groupEnable := by
  unfold readSlot
  split <;> simp

theorem readCandidate_groupEnable (s : State) : (readCandidate s).events.groupEnable = s.events.groupEnable := by
  unfold readCandidate
  dsimp only
  split <;> simp

theorem patrolStart_groupEnable (s : State) : (patrolStart s).events.groupEnable = s.events.groupEnable := by
  unfold patrolStart
  split
  · simp
  · split <;> simp

theorem setGrantLimit_groupEnable (s : State) : (setGrantLimit s).events.groupEnable = s.events.groupEnable := by
  unfold setGrantLimit
  dsimp only
  split_ifs <;> simp

theorem formatArray_groupEnable (s : State) : (formatArray s).events.groupEnable = s.events.groupEnable := by
  unfold formatArray
  split
  · simp
  · split
    · simp
    · split <;> simp [startFormat]

theorem cancelBusy_groupEnable (b : InProgress) (s : State) :
    (cancelBusy b s).events.groupEnable = s.events.groupEnable := by
  cases b <;> simp [cancelBusy]

end Sys2Proof.Machine
end

section
namespace Sys2Proof.Machine

/-! ### GROUP_ENABLE over a command: only its own write and PORST change it (R182) -/

/-- If the outcome is a next state, it has the GROUP_ENABLE of `s`. -/
def KeepsGroupEnable (o : Host.Outcome State Fault Refusal) (s : State) : Prop :=
  ∀ t, o = .next t → t.events.groupEnable = s.events.groupEnable

theorem KeepsGroupEnable.next {s t : State} (same : t.events.groupEnable = s.events.groupEnable) :
    KeepsGroupEnable (.next t) s := by
  rintro _ ⟨⟩
  exact same

/-- The meaning may run on a state whose pins have changed already. -/
theorem KeepsGroupEnable.onPart {f : State → State} (keeps : ∀ s, (f s).events.groupEnable = s.events.groupEnable)
    {s t : State} (same : t.events.groupEnable = s.events.groupEnable) : KeepsGroupEnable (onPart f t) s := by
  refine .next ?_
  split
  · exact same
  · exact (keeps t).trans same

theorem KeepsGroupEnable.takeCommand {carry : State → State}
    (keeps : ∀ s, (carry s).events.groupEnable = s.events.groupEnable) {code : BitVec 8} {s : State} :
    KeepsGroupEnable (.next (takeCommand code carry s)) s :=
  .next (takeCommand_groupEnable keeps code s)

theorem KeepsGroupEnable.ite {c : Prop} [Decidable c] {a b : Host.Outcome State Fault Refusal} {s : State}
    (ha : KeepsGroupEnable a s) (hb : KeepsGroupEnable b s) : KeepsGroupEnable (if c then a else b) s := by
  split
  · exact ha
  · exact hb

theorem execCancel_keepsGroupEnable (s : State) : KeepsGroupEnable (execCancel s) s := by
  unfold execCancel
  split
  · exact .onPart (cancelBusy_groupEnable _) rfl
  · exact .takeCommand (outsideGeometryFault_groupEnable fun s => by simp)

theorem exec_keepsGroupEnable (c : Instr) (s : State) (write : ∀ v, c ≠ .groupEnableWrite v)
    (assert : c ≠ .porstAssert) (release : ∀ g, c ≠ .porstRelease g) : KeepsGroupEnable (exec c s) s := by
  cases c
  case groupEnableWrite v => exact absurd rfl (write v)
  case porstAssert => exact absurd rfl assert
  case porstRelease g => exact absurd rfl (release g)
  -- an edge of a pin changes the level, and then the part; without an edge nothing happens
  case srstAssert => exact .ite (.next rfl) (.onPart systemReset_groupEnable rfl)
  case srstRelease => exact .ite (.onPart (f := openDrainWait) (fun s => by simp) rfl) (.next rfl)
  case pwarnAssert => exact .ite (.next rfl) (.onPart powerWarning_groupEnable rfl)
  case pwarnRelease => exact .next rfl
  case agntAssert => exact .ite (.next rfl) (.onPart grantReturns_groupEnable rfl)
  case agntWithdraw => exact .ite (.onPart grantFalls_groupEnable rfl) (.next rfl)
  -- the command codes, by who judges them first: the map lock, the phase, or the command itself
  case setFence => exact .takeCommand (underLock_groupEnable setFence_groupEnable)
  case loadRegion => exact .takeCommand (underLock_groupEnable loadRegion_groupEnable)
  case loadClass => exact .takeCommand (underLock_groupEnable loadClass_groupEnable)
  case saveSettings => exact .takeCommand (underLock_groupEnable saveSettings_groupEnable)
  case readRemap => exact .takeCommand (inService_groupEnable readRemap_groupEnable)
  case readSlot => exact .takeCommand (inService_groupEnable readSlot_groupEnable)
  case patrolStart => exact .takeCommand (inService_groupEnable patrolStart_groupEnable)
  case readLimits => exact .takeCommand (outsideGeometryFault_groupEnable fun s => by simp)
  case loadRange => exact .takeCommand (outsideGeometryFault_groupEnable loadRange_groupEnable)
  case loadTarget => exact .takeCommand (outsideGeometryFault_groupEnable loadTarget_groupEnable)
  case sequenceSet => exact .takeCommand (outsideGeometryFault_groupEnable sequenceSet_groupEnable)
  case sequenceArm => exact .takeCommand (outsideGeometryFault_groupEnable fun s => by simp [sequenceArm])
  case sequenceDisarm => exact .takeCommand (outsideGeometryFault_groupEnable fun s => by simp [sequenceDisarm])
  case drainAll => exact .takeCommand (outsideGeometryFault_groupEnable drainAll_groupEnable)
  case setReserve => exact .takeCommand (outsideGeometryFault_groupEnable setReserve_groupEnable)
  case readCandidate => exact .takeCommand (outsideGeometryFault_groupEnable readCandidate_groupEnable)
  case patrolStop => exact .takeCommand (outsideGeometryFault_groupEnable fun s => by simp [patrolStop])
  case patrolStatus => exact .takeCommand (outsideGeometryFault_groupEnable fun s => by simp [patrolStatus])
  case setGrantLimit => exact .takeCommand (outsideGeometryFault_groupEnable setGrantLimit_groupEnable)
  case fenceLock => exact .takeCommand fenceLock_groupEnable
  case fenceUnlock maintEn =>
    exact .takeCommand fun s => fenceUnlock_groupEnable { s with pins := { s.pins with maintEn := maintEn } }
  case fenceFreeze => exact .takeCommand fenceFreeze_groupEnable
  case retireLine => exact .takeCommand retireJudged_groupEnable
  case formatArray => exact .takeCommand formatArray_groupEnable
  case cancel => exact execCancel_keepsGroupEnable s
  case unknownCommand code =>
    refine .next ?_
    split
    · rfl
    · exact takeCommand_groupEnable (fun s => by simp) code s
  -- an event that is acted on when its timer has run, or while busy
  case grantWaitExpiry =>
    refine .onPart (f := fun s => if grantExpired s then settle (expire s) else s) (fun s => ?_) rfl
    split <;> simp
  case settleTimerExpiry =>
    refine .onPart (f := fun s => if s.metaCtl.phase = .readReady ∧ settleExpired s then enterRepairing s else s)
      (fun s => ?_) rfl
    split <;> simp
  case commandWriteWhileBusy code =>
    refine .onPart (f := fun s => if s.mgmt.busy.isSome ∧ code ≠ 0x19#8 then post .commandOverrun s else s)
      (fun s => ?_) rfl
    split <;> simp
  -- an operation that `settle` follows
  case systemReadComplete ecc data => exact .onPart (f := fun s => settle (readDone ecc data s)) (fun s => by simp) rfl
  case waitingWritePlace => exact .onPart (f := fun s => settle (placeWaiting s)) (fun s => by simp) rfl
  case claimGrant line => exact .onPart (f := fun s => settle (settleClaims line s)) (fun s => by simp) rfl
  case reassignServe => exact .onPart (f := fun s => settle (serveReassign s)) (fun s => by simp) rfl
  -- the meaning of every other command is one operation
  all_goals
    refine .onPart ?_ rfl
    intro u
    simp

/-! ### ALERT and GROUP_PENDING (R171, R177, R182) -/

/-- The flags of a group, in the order of their positions (R177). -/
def flagsOf : Group → List Flag
  | .access => [.denied, .beyondFence, .watchHit, .sequenceComplete, .sequenceBreak, .malformed]
  | .media =>
    [.candidateAdded, .candidateLost, .remapped, .dataLoss, .sparesLow, .sparesExhausted, .relocationDropped]
  | .array => [.grantWithdrawn, .unavailable, .available, .metadataFault, .metadataDamaged]
  | .service => [.commandDone, .commandOverrun, .patrolPass, .phaseChange, .lockExpired, .incidentOverflow]

theorem mem_flagsOf_of_assigned (g : Group) :
    ∀ n < 32, (groupPositions g).getLsbD n = true → ∃ f ∈ flagsOf g, f.group = g ∧ f.position = n := by
  cases g <;> decide

/-- Every assigned position of a group is a flag's (R177). -/
theorem exists_flag_of_assigned {g : Group} {n : Nat} (assigned : (groupPositions g).getLsbD n = true) :
    ∃ f : Flag, f.group = g ∧ f.position = n := by
  obtain ⟨f, -, group, position⟩ := mem_flagsOf_of_assigned g n (BitVec.lt_of_getLsbD assigned) assigned
  exact ⟨f, group, position⟩

theorem getLsbD_of_and_not_eq_zero {x y : Word} (covered : x &&& ~~~y = 0#32) {n : Nat} (set : x.getLsbD n = true) :
    y.getLsbD n = true := by
  have clear : (x &&& ~~~y).getLsbD n = false := by rw [covered, BitVec.getLsbD_zero]
  simpa [set, BitVec.lt_of_getLsbD set] using clear

/-- A flags register holds assigned positions alone (R171, R181). -/
theorem assigned_of_groupOk {g : Group} {x : EventGroup} (ok : groupOk g x = true) {n : Nat}
    (set : x.flags.getLsbD n = true) : (groupPositions g).getLsbD n = true := by
  simp only [groupOk, Bool.and_eq_true, beq_iff_eq] at ok
  obtain ⟨flags, enables⟩ := ok
  exact getLsbD_of_and_not_eq_zero enables (getLsbD_of_and_not_eq_zero flags set)

theorem groupOk_of_eventsOk {s : State} (ok : eventsOk s = true) (g : Group) :
    groupOk g (s.events.group g) = true := by
  simp only [eventsOk, Bool.and_eq_true] at ok
  obtain ⟨⟨⟨⟨⟨access, media⟩, array⟩, service⟩, -⟩, -⟩ := ok
  cases g
  case access => exact access
  case media => exact media
  case array => exact array
  case service => exact service

/-- A group is pending while one of its flags is set, for no other bit of its flags register can be (R182). -/
theorem groupPending_iff {s : State} (ok : eventsOk s = true) (g : Group) :
    s.events.groupPending g = true ↔ ∃ f : Flag, f.group = g ∧ s.events.isSet f = true := by
  simp only [Events.groupPending, bne_iff_ne]
  constructor
  · intro nonzero
    obtain ⟨n, set⟩ : ∃ n, (s.events.group g).flags.getLsbD n = true := by
      by_contra none
      exact nonzero (BitVec.eq_of_getLsbD_eq fun n _ => by simpa using not_exists.mp none n)
    obtain ⟨f, rfl, rfl⟩ := exists_flag_of_assigned (assigned_of_groupOk (groupOk_of_eventsOk ok g) set)
    exact ⟨f, rfl, set⟩
  · rintro ⟨f, rfl, set⟩ zero
    simp [Events.isSet, zero] at set

theorem enabledPending_iff (e : Events) :
    e.enabledPending = true ↔ ∃ g, e.groupEnable.getLsbD (groupBit g) = true ∧ e.groupPending g = true := by
  simp only [Events.enabledPending, List.any_eq_true, Bool.and_eq_true]
  constructor
  · rintro ⟨g, -, both⟩
    exact ⟨g, both⟩
  · rintro ⟨g, both⟩
    exact ⟨g, by cases g <;> decide, both⟩

theorem alert_iff {s : State} (ok : eventsOk s = true) :
    alert s = true ↔ s.pins.porst = false ∧ s.events.groupEnable.getLsbD 31 = true
      ∧ ∃ f : Flag, s.events.isSet f = true ∧ s.events.groupEnable.getLsbD (groupBit f.group) = true := by
  have enabled : s.events.enabledPending = true ↔
      ∃ f : Flag, s.events.isSet f = true ∧ s.events.groupEnable.getLsbD (groupBit f.group) = true := by
    simp only [enabledPending_iff, groupPending_iff ok]
    constructor
    · rintro ⟨_, enable, f, rfl, set⟩
      exact ⟨f, set, enable⟩
    · rintro ⟨f, set, enable⟩
      exact ⟨f.group, enable, f, rfl, set⟩
  rw [← enabled]
  simp [alert, and_assoc]

theorem alert_porst {s : State} (asserted : s.pins.porst = true) : alert s = false := by
  simp [alert, asserted]

theorem pendingRegister_groupBit (e : Events) (g : Group) :
    e.pendingRegister.getLsbD (groupBit g) = e.groupPending g := by
  cases g <;> simp [Events.pendingRegister, groupBit]

theorem flagBit_zero (b : Bool) : (flagBit b)[0] = b := by
  cases b <;> rfl

theorem word_bit_of_lt {n k : Nat} (small : n < 2 ^ k) (bit : k < 32) : (word n)[k] = false := by
  rw [word, BitVec.getElem_eq_testBit_toNat, BitVec.toNat_ofNat]
  exact Nat.testBit_lt_two_pow ((Nat.mod_le n _).trans_lt small)

theorem serviceState_code_lt (v : ServiceState) : v.code < 2 ^ 2 := by
  cases v <;> decide

theorem phase_code_lt (p : Phase) : p.code < 2 ^ 6 := by
  cases p <;> decide

/-- Bit 6 of the status byte is ALERT: the field below it holds two bits, and the phase three (R170). -/
theorem statusByte_alert (s : State) : (statusByte s).getLsbD 6 = alert s := by
  cases porst : s.pins.porst with
  | true => simp [statusByte, porst, alert_porst porst]
  | false =>
    simp [statusByte, porst, flagBit_zero, word_bit_of_lt (serviceState_code_lt _), word_bit_of_lt (phase_code_lt _)]

/-- GROUP_ENABLE_WRITE places the four group enables and the master enable (R182). -/
theorem exec_groupEnableWrite (v : Word) {s : State} (released : s.pins.porst = false) :
    exec (.groupEnableWrite v) s = .next { s with events := { s.events with groupEnable := v &&& 0x8000000F#32 } } :=
  onPart_out released (writeGroupEnable v)

/-- Settles O10: ALERT and GROUP_PENDING by the bits that a well-formed Event Controller can hold, and GROUP_ENABLE by
what each command does to it. -/
theorem alertFollowsEnabledPendingGroups : Obligations.AlertFollowsEnabledPendingGroups := by
  refine ⟨fun s => ⟨statusByte_alert s, alert_porst⟩, fun s ok => ⟨alert_iff ok, fun g => ?pending⟩,
    fun v s released => exec_groupEnableWrite v released,
    fun c s t next write assert release => exec_keepsGroupEnable c s write assert release t next⟩
  case pending =>
    have shown : (readRegister s 0x14#7).getLsbD (groupBit g) = s.events.groupPending g :=
      pendingRegister_groupBit s.events g
    rw [shown]
    exact groupPending_iff ok g

end Sys2Proof.Machine
end

section
namespace Sys2Proof.Machine

/-! ### What every operation keeps

`Kept` has one field for each group of invariants that every command keeps. `KeptMost` adds what only one command
or PORST changes, the record last popped and the parameters; `KeptAll` adds the partition of the spare pool, which
the reads of image lines build up anew. All are chained by `trans`, so that an operation's lemma is the chain of
the lemmas of what it is made of. -/

/-- The invariants of the settings, the watches, the fence and the lock together. -/
def SettingsOk (s : State) : Prop :=
  shapesOk s = true ∧ sequenceOk s = true ∧ regionsOk s = true ∧ classesOk s = true ∧ watchesOk s = true
    ∧ fencesOk s = true ∧ lockOk s = true

/-- The invariants that hold in `s` hold in `t`, the partition of the spare pool apart. -/
structure Kept (s t : State) : Prop where
  events : eventsOk s = true → eventsOk t = true
  settings : SettingsOk s → SettingsOk t
  queues : queuesOk s = true → queuesOk t = true
  sparse : sparseOk s = true → sparseOk t = true
  buffer : bufferOk s = true → bufferOk t = true
  reserve : reserveOk s = true → reserveOk t = true

/-- `Kept`, with the record last popped (R178) and the parameters (R171). -/
structure KeptMost (s t : State) : Prop extends Kept s t where
  popped : t.events.popped = s.events.popped
  params : t.mgmt.params = s.mgmt.params

/-- `KeptMost`, with the partition of the spare pool (R103, R108). -/
structure KeptAll (s t : State) : Prop extends KeptMost s t where
  pool : sparseOk s = true → poolOk s = true → poolOk t = true

theorem Kept.refl (s : State) : Kept s s := ⟨id, id, id, id, id, id⟩

theorem Kept.trans {s t u : State} (h : Kept s t) (k : Kept t u) : Kept s u where
  events := k.events ∘ h.events
  settings := k.settings ∘ h.settings
  queues := k.queues ∘ h.queues
  sparse := k.sparse ∘ h.sparse
  buffer := k.buffer ∘ h.buffer
  reserve := k.reserve ∘ h.reserve

theorem KeptMost.refl (s : State) : KeptMost s s := ⟨.refl s, rfl, rfl⟩

theorem KeptMost.trans {s t u : State} (h : KeptMost s t) (k : KeptMost t u) : KeptMost s u :=
  ⟨h.toKept.trans k.toKept, k.popped.trans h.popped, k.params.trans h.params⟩

/-- `trans` in the order of an expression: the outer operation first. -/
theorem KeptMost.after {s t u : State} (k : KeptMost t u) (h : KeptMost s t) : KeptMost s u := h.trans k

theorem KeptAll.refl (s : State) : KeptAll s s := ⟨.refl s, fun _ => id⟩

theorem KeptAll.trans {s t u : State} (h : KeptAll s t) (k : KeptAll t u) : KeptAll s u :=
  ⟨h.toKeptMost.trans k.toKeptMost, fun sparse pool => k.pool (h.sparse sparse) (h.pool sparse pool)⟩

/-- `trans` in the order of an expression: the outer operation first. -/
theorem KeptAll.after {s t u : State} (k : KeptAll t u) (h : KeptAll s t) : KeptAll s u := h.trans k

theorem KeptAll.foldl {α : Type} {f : State → α → State} (step : ∀ t a, KeptAll t (f t a)) (l : List α) (s : State) :
    KeptAll s (l.foldl f s) := by
  induction l generalizing s with
  | nil => exact .refl s
  | cons a l ih => exact (step s a).trans (ih (f s a))

theorem KeptAll.ite {c : Prop} [Decidable c] {s t u : State} (ht : c → KeptAll s t) (hu : ¬c → KeptAll s u) :
    KeptAll s (if c then t else u) := by
  split
  · exact ht ‹_›
  · exact hu ‹_›

/-! #### The invariants, block by block -/

/-- The candidate list, the relocation queue and the jobs against each other (R123, R129, R130). -/
def HealthOk (h : MediaHealth) : Prop :=
  (h.candidates.length ≤ 32 ∧ h.queue.length ≤ 16)
    ∧ ((h.candidates.map (·.line)).Nodup ∧ (h.queue.map (·.line)).Nodup)
    ∧ (∀ j ∈ h.queue, ∀ c ∈ h.candidates, c.line ≠ j.line) ∧ ∀ j ∈ h.jobs, ∀ c ∈ h.candidates, c.line ≠ j.line

theorem queuesOk_iff (s : State) :
    queuesOk s = true ↔
      (s.path.queueA.length ≤ 8 ∧ s.path.queueB.length ≤ 8) ∧ s.remap.noData.length ≤ 16 ∧ HealthOk s.health := by
  simp only [queuesOk, HealthOk, isCandidate, Bool.and_eq_true, decide_eq_true_eq, List.all_eq_true, Bool.not_eq_true',
    List.any_eq_false, beq_iff_eq]
  tauto

/-- The claim table is canonical (R92). -/
def ClaimsOk (claims : List (Nat × ClaimRecord)) : Prop :=
  sparseWf claims = true ∧ ∀ p ∈ claims, claimHeld p.2 = true

/-- The remap table, the slot records and the DEAD slots are canonical (R100, R105). -/
def RemapOk (r : RemapUnit) : Prop :=
  sparseWf r.table = true ∧ (sparseWf r.records = true ∧ ∀ p ∈ r.records, p.2 ≠ .free) ∧ r.dead.Pairwise (· < ·)

theorem sparseOk_iff (s : State) : sparseOk s = true ↔ RemapOk s.remap ∧ ClaimsOk s.link.claims := by
  simp only [sparseOk, RemapOk, ClaimsOk, Bool.and_eq_true, decide_eq_true_eq, List.all_eq_true, bne_iff_ne]
  tauto

theorem reserveOk_iff (s : State) :
    reserveOk s = true ↔
      isReserve s.buffer.reserve = true ∧ s.buffer.entries.length ≤ 32 - s.buffer.reserve
        ∧ s.health.jobs.length ≤ s.buffer.reserve ∧ ∀ n, s.mgmt.busy = some (.reserve n) → isReserve n = true := by
  rw [show s.buffer.entries.length = systemInUse s from rfl, show s.health.jobs.length = stagingInUse s from rfl]
  cases busy : s.mgmt.busy with
  | none => simp [reserveOk, reserveWait, busy, and_assoc]
  | some b => cases b <;> simp [reserveOk, reserveWait, busy, and_assoc]

theorem bufferOk_iff (s : State) :
    bufferOk s = true ↔
      s.buffer.entries.Pairwise entryOrder
        ∧ (s.buffer.entries.filter fun e => e.state == .draining).map (·.line)
          = (s.buffer.drain.map fun c => [c.line]).getD [] := by
  simp only [bufferOk, Bool.and_eq_true, decide_eq_true_eq, beq_iff_eq]

/-- The slots that the remap table names (R100). -/
def tableSlots (s : State) : List Nat := s.remap.table.map (·.2.slot)

/-- A slot exists, is not DEAD and is named by no entry (R103). -/
theorem freeSlot_iff (s : State) (slot : Nat) :
    freeSlot s slot = true ↔ slot < 4096 ∧ slot ∉ s.remap.dead ∧ slot ∉ tableSlots s := by
  simp [freeSlot, tableSlots, and_assoc]

/-- The trial slot of what the head of the work list waits for (R108). -/
def Serving.trial : Serving → Option Nat
  | .spare slot => some slot
  | .inUse slot => some slot
  | _ => none

/-- The entries' slots are distinct, they and the DEAD slots are apart, and all of them exist (R103). -/
def SlotsOk (slots dead : List Nat) : Prop :=
  slots.Nodup ∧ (∀ n ∈ slots, n < 4096 ∧ n ∉ dead) ∧ ∀ n ∈ dead, n < 4096

theorem poolOk_iff (s : State) :
    poolOk s = true ↔
      SlotsOk (tableSlots s) s.remap.dead ∧ (s.remap.serving.isSome = true → s.remap.workList ≠ [])
        ∧ ∀ slot, s.remap.serving.bind Serving.trial = some slot → freeSlot s slot = true := by
  have slots : (decide ((s.remap.table.map (·.2.slot)).Nodup)
      && s.remap.table.all (fun p => decide (p.2.slot < Config.spareSlots) && !s.remap.dead.contains p.2.slot)
      && s.remap.dead.all fun n => decide (n < Config.spareSlots)) = true ↔ SlotsOk (tableSlots s) s.remap.dead := by
    simp [SlotsOk, tableSlots, and_assoc, -List.mem_map, List.forall_mem_map]
  rw [← slots, poolOk]
  cases serving : s.remap.serving with
  | none => simp
  | some v => cases v <;> simp [Serving.trial, and_assoc]

/-! #### One rule for each block: what its change has to keep -/

theorem KeptAll.setPins (p : Pins) (s : State) : KeptAll s { s with pins := p } :=
  ⟨⟨⟨id, id, id, id, id, id⟩, rfl, rfl⟩, fun _ => id⟩

theorem KeptAll.setMetaCtl (m : MetaControl) (s : State) : KeptAll s { s with metaCtl := m } :=
  ⟨⟨⟨id, id, id, id, id, id⟩, rfl, rfl⟩, fun _ => id⟩

theorem KeptAll.setEvents {s : State} (e : Events) (popped : e.popped = s.events.popped)
    (ok : eventsOk s = true → eventsOk { s with events := e } = true) : KeptAll s { s with events := e } :=
  ⟨⟨⟨ok, id, id, id, id, id⟩, popped, rfl⟩, fun _ => id⟩

/-! The settings are three blocks, and the fence gives the native user limit to the other two. -/

/-- The tables under a native user limit (R38, R41). -/
def TablesOk (u : Nat) (t : Tables) : Prop :=
  ((t.regions.length = 16 ∧ t.storedRegions.length = 16) ∧ t.classes.length = 4 ∧ t.storedClasses.length = 4)
    ∧ (u ≠ 0 → (∀ r ∈ t.regions, regionFormed u r = true) ∧ ∀ r ∈ t.storedRegions, regionFormed u r = true)
    ∧ (∀ c ∈ t.classes, thresholdFormed c.threshold = true) ∧ ∀ c ∈ t.storedClasses, thresholdFormed c.threshold = true

/-- The watches under a native user limit (R144, R149). -/
def WatchOk (u : Nat) (w : WatchUnit) : Prop :=
  (w.ranges.length = 8 ∧ w.targets.length = 16) ∧ ((1 ≤ w.count ∧ w.count ≤ 16) ∧ w.index < w.count)
    ∧ (∀ r ∈ w.ranges, r.first ≤ r.last)
    ∧ (u ≠ 0 → (∀ r ∈ w.ranges, r.last < 64 * u) ∧ ∀ t ∈ w.targets, t.addr < 64 * u)

/-- The refusal count that a lock state allows (R32). -/
def RefusalsOk : LockState → Nat → Prop
  | .unlocked, n => n = 0
  | .locked, n => n ≤ 4
  | .expired, n => n = 5
  | .frozen, n => n ≤ 5

/-- Both fences, and the lock (R22, R32). -/
def FenceOk (f : FenceLock) : Prop :=
  (f.uNative ≠ 0 → (1 ≤ f.current ∧ f.current ≤ f.uNative) ∧ 1 ≤ f.stored ∧ f.stored ≤ f.uNative)
    ∧ RefusalsOk f.lock f.refusals

theorem settingsOk_iff (s : State) :
    SettingsOk s ↔
      (s.mgmt.params.length = 8 ∧ s.mgmt.rdata.length = 8) ∧ TablesOk s.fence.uNative s.tables
        ∧ WatchOk s.fence.uNative s.watch ∧ FenceOk s.fence := by
  have classes : classesOk s = true ↔ (∀ c ∈ s.tables.classes, thresholdFormed c.threshold = true)
      ∧ ∀ c ∈ s.tables.storedClasses, thresholdFormed c.threshold = true := by
    simp only [classesOk, List.all_append, Bool.and_eq_true, List.all_eq_true]
    rfl
  have lock : lockOk s = true ↔ RefusalsOk s.fence.lock s.fence.refusals := by
    cases h : s.fence.lock <;> simp [lockOk, RefusalsOk, h]
  simp only [SettingsOk, classes, lock, TablesOk, WatchOk, FenceOk, shapesOk, sequenceOk, regionsOk, watchesOk,
    fencesOk, Bool.and_eq_true, Bool.or_eq_true, beq_iff_eq, decide_eq_true_eq, List.all_eq_true, or_iff_not_imp_left]
  tauto

theorem KeptAll.setFenceLock {s : State} (f : FenceLock) (limit : f.uNative = s.fence.uNative)
    (ok : FenceOk s.fence → FenceOk f) : KeptAll s { s with fence := f } := by
  refine ⟨⟨⟨id, fun settings => ?_, id, id, id, id⟩, rfl, rfl⟩, fun _ => id⟩
  rw [settingsOk_iff] at settings ⊢
  obtain ⟨sizes, tables, watch, fence⟩ := settings
  exact ⟨sizes, limit ▸ tables, limit ▸ watch, ok fence⟩

theorem KeptAll.setTables {s : State} (t : Tables)
    (ok : TablesOk s.fence.uNative s.tables → TablesOk s.fence.uNative t) : KeptAll s { s with tables := t } := by
  refine ⟨⟨⟨id, fun settings => ?_, id, id, id, id⟩, rfl, rfl⟩, fun _ => id⟩
  rw [settingsOk_iff] at settings ⊢
  obtain ⟨sizes, tables, rest⟩ := settings
  exact ⟨sizes, ok tables, rest⟩

theorem KeptAll.setWatch {s : State} (w : WatchUnit)
    (ok : WatchOk s.fence.uNative s.watch → WatchOk s.fence.uNative w) :
    KeptAll s { s with watch := w } := by
  refine ⟨⟨⟨id, fun settings => ?_, id, id, id, id⟩, rfl, rfl⟩, fun _ => id⟩
  rw [settingsOk_iff] at settings ⊢
  obtain ⟨sizes, tables, watch, fence⟩ := settings
  exact ⟨sizes, tables, ok watch, fence⟩

theorem KeptAll.setPath {s : State} (p : LinePath) (a : s.path.queueA.length ≤ 8 → p.queueA.length ≤ 8)
    (b : s.path.queueB.length ≤ 8 → p.queueB.length ≤ 8) : KeptAll s { s with path := p } where
  popped := rfl
  params := rfl
  events := id
  settings := id
  queues h := by
    rw [queuesOk_iff] at h ⊢
    exact ⟨h.1.imp a b, h.2⟩
  sparse := id
  buffer := id
  reserve := id
  pool _ := id

theorem KeptAll.setLink {s : State} (l : ArrayLink) (ok : ClaimsOk s.link.claims → ClaimsOk l.claims) :
    KeptAll s { s with link := l } where
  popped := rfl
  params := rfl
  events := id
  settings := id
  queues := id
  sparse h := by
    rw [sparseOk_iff] at h ⊢
    exact h.imp_right ok
  buffer := id
  reserve := id
  pool _ := id

theorem KeptAll.setHealth {s : State} (h : MediaHealth) (ok : HealthOk s.health → HealthOk h)
    (jobs : reserveOk s = true → h.jobs.length ≤ s.buffer.reserve) : KeptAll s { s with health := h } where
  popped := rfl
  params := rfl
  events := id
  settings := id
  queues k := by
    rw [queuesOk_iff] at k ⊢
    exact k.imp_right (And.imp_right ok)
  sparse := id
  buffer := id
  reserve k := by
    have fits := jobs k
    rw [reserveOk_iff] at k ⊢
    obtain ⟨value, entries, -, waiting⟩ := k
    exact ⟨value, entries, fits, waiting⟩
  pool _ := id

theorem KeptAll.setBuffer {s : State} (b : PostingBuffer)
    (ok : bufferOk s = true → bufferOk { s with buffer := b } = true)
    (reserve : reserveOk s = true → reserveOk { s with buffer := b } = true) : KeptAll s { s with buffer := b } :=
  ⟨⟨⟨id, id, id, id, ok, reserve⟩, rfl, rfl⟩, fun _ => id⟩

theorem Kept.setMgmt {s : State} (m : Management) (params : m.params.length = s.mgmt.params.length)
    (rdata : s.mgmt.rdata.length = 8 → m.rdata.length = 8)
    (busy : (∀ n, s.mgmt.busy = some (.reserve n) → isReserve n = true) →
      ∀ n, m.busy = some (.reserve n) → isReserve n = true) : Kept s { s with mgmt := m } where
  events := id
  settings h := by
    rw [settingsOk_iff] at h ⊢
    exact h.imp_left fun sizes => ⟨params.trans sizes.1, rdata sizes.2⟩
  queues := id
  sparse := id
  buffer := id
  reserve h := by
    rw [reserveOk_iff] at h ⊢
    obtain ⟨value, entries, jobs, waiting⟩ := h
    exact ⟨value, entries, jobs, busy waiting⟩

theorem KeptAll.setMgmt {s : State} (m : Management) (params : m.params = s.mgmt.params)
    (rdata : s.mgmt.rdata.length = 8 → m.rdata.length = 8)
    (busy : (∀ n, s.mgmt.busy = some (.reserve n) → isReserve n = true) →
      ∀ n, m.busy = some (.reserve n) → isReserve n = true) : KeptAll s { s with mgmt := m } :=
  ⟨⟨.setMgmt m (congrArg List.length params) rdata busy, rfl, params⟩, fun _ => id⟩

/-- The Remap Unit with its table, its records, its DEAD slots and its no-data queue changed as `RemapOk` allows. -/
theorem KeptMost.setRemap {s : State} (r : RemapUnit) (noData : s.remap.noData.length ≤ 16 → r.noData.length ≤ 16)
    (ok : RemapOk s.remap → RemapOk r) : KeptMost s { s with remap := r } where
  popped := rfl
  params := rfl
  events := id
  settings := id
  queues h := by
    rw [queuesOk_iff] at h ⊢
    exact ⟨h.1, noData h.2.1, h.2.2⟩
  sparse h := by
    rw [sparseOk_iff] at h ⊢
    exact h.imp_left ok
  buffer := id
  reserve := id

theorem KeptAll.setRemap {s : State} (r : RemapUnit) (noData : s.remap.noData.length ≤ 16 → r.noData.length ≤ 16)
    (ok : RemapOk s.remap → RemapOk r)
    (pool : RemapOk s.remap → poolOk s = true → poolOk { s with remap := r } = true) :
      KeptAll s { s with remap := r } :=
  ⟨.setRemap r noData ok, fun sparse => pool ((sparseOk_iff s).mp sparse).1⟩

end Sys2Proof.Machine
end

section
namespace Sys2Proof.Machine

/-! #### The shared operations -/

theorem groupOk_post {g : Group} {x : EventGroup} (n : Nat) (ok : groupOk g x = true) :
    groupOk g (x.post n) = true := by
  unfold EventGroup.post
  split
  case isFalse => exact ok
  case isTrue enabled =>
    simp only [groupOk, Bool.and_eq_true, beq_iff_eq] at ok ⊢
    refine ⟨?_, ok.2⟩
    have bit : (1#32 <<< n) &&& ~~~x.enables = 0#32 := by
      refine BitVec.eq_of_getLsbD_eq fun i hi => ?_
      by_cases same : i = n
      · subst same
        simp [enabled]
      · have other : (1#32 <<< n).getLsbD i = false := by
          simp only [BitVec.getLsbD_shiftLeft, BitVec.getLsbD_one]
          by_cases below : i < n
          · simp [below]
          · simp [show i - n ≠ 0 by omega]
        rw [BitVec.getLsbD_and, other]
        simp
    calc (x.flags ||| 1#32 <<< n) &&& ~~~x.enables
        = (x.flags &&& ~~~x.enables) ||| ((1#32 <<< n) &&& ~~~x.enables) := by
          rw [BitVec.and_comm, BitVec.and_or_distrib_left, BitVec.and_comm, BitVec.and_comm (1#32 <<< n)]
      _ = 0#32 := by rw [ok.1, bit]; rfl

/-- The invariant of the Event Controller, group by group (R171, R181 to R183). -/
theorem eventsOk_iff (s : State) :
    eventsOk s = true ↔
      (∀ g, groupOk g (s.events.group g) = true) ∧ s.events.groupEnable &&& ~~~groupEnableBits = 0#32
        ∧ s.events.incidents.length ≤ 16 := by
  constructor
  · intro ok
    refine ⟨groupOk_of_eventsOk ok, ?_⟩
    simp only [eventsOk, Bool.and_eq_true, beq_iff_eq, decide_eq_true_eq] at ok
    exact ⟨ok.1.2, ok.2⟩
  · rintro ⟨groups, enable, incidents⟩
    simp only [eventsOk, Bool.and_eq_true, beq_iff_eq, decide_eq_true_eq]
    exact ⟨⟨⟨⟨⟨groups .access, groups .media⟩, groups .array⟩, groups .service⟩, enable⟩, incidents⟩

/-- The invariant of the Event Controller, with one group's registers replaced by well-formed ones. -/
theorem eventsOk_setGroup {s : State} {g : Group} {x : EventGroup} (ok : eventsOk s = true)
    (x_ok : groupOk g x = true) :
    eventsOk { s with events := s.events.setGroup g x } = true := by
  rw [eventsOk_iff] at ok ⊢
  obtain ⟨groups, enable, incidents⟩ := ok
  refine ⟨fun g' => ?_, by simpa using enable, by simpa using incidents⟩
  by_cases same : g' = g
  · subst same
    simpa using x_ok
  · rw [setGroup_group_ne _ _ same]
    exact groups g'

theorem post_kept (f : Flag) (s : State) : KeptAll s (post f s) := by
  refine .setEvents _ (events_post_popped _ _) fun ok => eventsOk_setGroup ok ?_
  exact groupOk_post _ (groupOk_of_eventsOk ok f.group)

theorem writeIncident_kept (i : Incident) (s : State) : KeptAll s (writeIncident i s) := by
  unfold writeIncident
  split
  case isFalse => exact post_kept _ _
  case isTrue room =>
    refine .setEvents _ rfl fun ok => ?_
    rw [eventsOk_iff] at ok ⊢
    refine ⟨ok.1, ok.2.1, ?_⟩
    rw [List.length_append]
    exact room

theorem setStand_kept (p : Port) (serial : Nat) (st : Stand) (s : State) : KeptAll s (setStand p serial st s) := by
  cases p
  · exact .setPath _ (by simp [queueOf]) id
  · exact .setPath _ id (by simp [queueOf])

theorem answer_kept (p : Port) (serial : Nat) (r : Response) (s : State) : KeptAll s (answer p serial r s) :=
  setStand_kept p serial (.decided r) s

theorem postThresholds_kept (before : Nat) (s : State) : KeptAll s (postThresholds before s) := by
  unfold postThresholds
  dsimp only
  split_ifs
  · exact (post_kept _ _).trans (post_kept _ _)
  · exact post_kept _ _
  · exact post_kept _ _
  · exact .refl s

/-- A command that completes clears busy and places 8 registers of data, of which it returns at most 8 (R173). -/
theorem completeWith_kept (r : ResultCode) (data : List Word) (s : State) (fits : data.length ≤ 8) :
    KeptAll s (completeWith r data s) := by
  refine (post_kept _ _).after (.setMgmt _ rfl (fun _ => ?_) fun _ n busy => by cases busy)
  rw [List.length_append, List.length_replicate]
  omega

theorem complete_kept (r : ResultCode) (s : State) : KeptAll s (complete r s) := completeWith_kept r [] s (by simp)

theorem takeCommand_kept {carry : State → State} (kept : ∀ s, KeptAll s (carry s)) (code : BitVec 8) (s : State) :
    KeptAll s (takeCommand code carry s) := by
  unfold takeCommand
  split_ifs
  · exact .refl s
  · exact post_kept _ _
  · exact (kept _).after (.setMgmt _ rfl id id)

theorem setPhase_kept (p : Phase) (s : State) : KeptAll s (setPhase p s) :=
  (post_kept _ _).after (.setMetaCtl _ s)

theorem placeOp_kept (op : ArrayOp) (s : State) : KeptAll s (placeOp op s) := .setLink _ id

theorem placeRead_kept (serial arrayLine : Nat) (s : State) : KeptAll s (placeRead serial arrayLine s) := .setLink _ id

theorem removeWork_kept (gone : ArrayOp → Bool) (s : State) : KeptAll s (removeWork gone s) := .setLink _ id

theorem requestMeta_kept (t : MetaLine) (a : MetaAsker) (s : State) : KeptAll s (requestMeta t a s) := by
  unfold requestMeta
  split
  · exact .setLink _ id
  · exact placeOp_kept _ s

theorem stopGrantTimer_kept (s : State) : KeptAll s (stopGrantTimer s) := by
  rw [stopGrantTimer_eq]
  exact .setLink _ id

theorem freePort_kept (s : State) : KeptAll s (freePort s) := .setLink _ id

/-- The value at a key of a sparse table with one key set is the new one, or was there. -/
theorem mem_sparseSet {α : Type} {l : List (Nat × α)} {k : Nat} {v : α} {p : Nat × α} (h : p ∈ sparseSet l k v) :
    p = (k, v) ∨ p ∈ l := by
  induction l with
  | nil => simpa [sparseSet] using h
  | cons a l ih =>
    obtain ⟨x, y⟩ := a
    simp only [sparseSet] at h
    split at h
    · simpa using h
    · split at h
      · rcases List.mem_cons.1 h with rfl | h
        · exact .inl rfl
        · exact .inr (List.mem_cons_of_mem _ h)
      · rcases List.mem_cons.1 h with rfl | h
        · exact .inr List.mem_cons_self
        · exact (ih h).imp_right (List.mem_cons_of_mem _)

theorem setClaims_kept (line : Nat) (r : ClaimRecord) (s : State) : KeptAll s (setClaims line r s) := by
  refine .setLink _ fun ok => ?_
  obtain ⟨rising, held⟩ := ok
  by_cases empty : (r.holders.isNone && r.waiting.isEmpty) = true
  · simp only [empty, if_true]
    exact ⟨sparseWf_del _ _ rising, fun p hp => held p (List.mem_of_mem_filter hp)⟩
  · simp only [empty, Bool.false_eq_true, if_false]
    refine ⟨sparseWf_set _ _ _ rising, fun p hp => ?_⟩
    rcases mem_sparseSet hp with rfl | hp
    · simp only [claimHeld, empty, Bool.not_false]
    · exact held p hp

theorem requestClaim_kept (line : Nat) (k : ClaimKind) (o : Claimant) (s : State) :
    KeptAll s (requestClaim line k o s) := by
  unfold requestClaim
  dsimp only
  split <;> exact setClaims_kept _ _ s

theorem dropClaim_kept (line : Nat) (o : Claimant) (s : State) : KeptAll s (dropClaim line o s) := setClaims_kept _ _ s

theorem advanceRepair_kept (s : State) : KeptAll s (advanceRepair s) := by
  unfold advanceRepair
  split
  · split
    · exact setPhase_kept _ s
    · split
      · exact .refl s
      · exact requestMeta_kept _ _ s
  · exact .refl s

theorem enterRepairing_kept (s : State) : KeptAll s (enterRepairing s) :=
  ((setPhase_kept _ s).trans (.setMetaCtl _ _)).trans (advanceRepair_kept _)

theorem settle_kept (s : State) : KeptAll s (settle s) := by
  rw [settle_eq]
  refine .trans (.ite (fun _ => enterRepairing_kept s) fun _ => .refl s) (stopGrantTimer_kept _)

/-! #### The Media Health Unit -/

theorem HealthOk.filterCandidates {h : MediaHealth} (f : Candidate → Bool) (ok : HealthOk h) :
    HealthOk { h with candidates := h.candidates.filter f } := by
  obtain ⟨⟨c, q⟩, ⟨cn, qn⟩, apart, jobs⟩ := ok
  exact ⟨⟨(List.length_filter_le _ _).trans c, q⟩, ⟨cn.sublist (List.filter_sublist.map _), qn⟩,
    fun j hj c hc => apart j hj c (List.mem_of_mem_filter hc), fun j hj c hc => jobs j hj c (List.mem_of_mem_filter hc)⟩

theorem HealthOk.filterQueue {h : MediaHealth} (f : QueuedJob → Bool) (ok : HealthOk h) :
    HealthOk { h with queue := h.queue.filter f } := by
  obtain ⟨⟨c, q⟩, ⟨cn, qn⟩, apart, jobs⟩ := ok
  exact ⟨⟨c, (List.length_filter_le _ _).trans q⟩, ⟨cn, qn.sublist (List.filter_sublist.map _)⟩,
    fun j hj => apart j (List.mem_of_mem_filter hj), jobs⟩

theorem HealthOk.filterJobs {h : MediaHealth} (f : Job → Bool) (ok : HealthOk h) :
    HealthOk { h with jobs := h.jobs.filter f } := by
  obtain ⟨lengths, nodup, apart, jobs⟩ := ok
  exact ⟨lengths, nodup, apart, fun j hj => jobs j (List.mem_of_mem_filter hj)⟩

/-- A new candidate of a line with neither candidacy, queued job nor job in flight (R123, R124). -/
theorem HealthOk.addCandidate {h : MediaHealth} (c : Candidate) (ok : HealthOk h) (room : h.candidates.length < 32)
    (candidates : ∀ x ∈ h.candidates, x.line ≠ c.line) (queue : ∀ j ∈ h.queue, j.line ≠ c.line)
    (jobs : ∀ j ∈ h.jobs, j.line ≠ c.line) : HealthOk { h with candidates := h.candidates ++ [c] } := by
  obtain ⟨⟨_, q⟩, ⟨cn, qn⟩, apart, inFlight⟩ := ok
  refine ⟨⟨by rw [List.length_append]; exact room, q⟩, ⟨?_, qn⟩, fun j hj x hx => ?_, fun j hj x hx => ?_⟩
  · rw [List.map_append, List.nodup_append]
    refine ⟨cn, by simp, fun a ha b hb => ?_⟩
    obtain ⟨x, hx, rfl⟩ := List.mem_map.1 ha
    simp only [List.map_cons, List.map_nil, List.mem_singleton] at hb
    exact hb ▸ candidates x hx
  · rcases List.mem_append.1 hx with hx | hx
    · exact apart j hj x hx
    · rw [List.mem_singleton.1 hx]
      exact (queue j hj).symm
  · rcases List.mem_append.1 hx with hx | hx
    · exact inFlight j hj x hx
    · rw [List.mem_singleton.1 hx]
      exact (jobs j hj).symm

/-- A new job of a line with neither a queued job nor candidacy (R129). -/
theorem HealthOk.addQueued {h : MediaHealth} (j : QueuedJob) (ok : HealthOk h) (room : h.queue.length < 16)
    (queue : ∀ x ∈ h.queue, x.line ≠ j.line) (candidates : ∀ c ∈ h.candidates, c.line ≠ j.line) :
    HealthOk { h with queue := h.queue ++ [j] } := by
  obtain ⟨⟨c, _⟩, ⟨cn, qn⟩, apart, jobs⟩ := ok
  refine ⟨⟨c, by rw [List.length_append]; exact room⟩, ⟨cn, ?_⟩, fun x hx => ?_, jobs⟩
  · rw [List.map_append, List.nodup_append]
    refine ⟨qn, by simp, fun a ha b hb => ?_⟩
    obtain ⟨x, hx, rfl⟩ := List.mem_map.1 ha
    simp only [List.map_cons, List.map_nil, List.mem_singleton] at hb
    exact hb ▸ queue x hx
  · rcases List.mem_append.1 hx with hx | hx
    · exact apart x hx
    · rw [List.mem_singleton.1 hx]
      exact candidates

theorem jobs_fit {s : State} (ok : reserveOk s = true) : s.health.jobs.length ≤ s.buffer.reserve :=
  ((reserveOk_iff s).mp ok).2.2.1

theorem not_isCandidate {s : State} {line : Nat} (h : ¬isCandidate s line = true) :
    ∀ c ∈ s.health.candidates, c.line ≠ line := by
  simpa [isCandidate] using h

theorem not_jobQueued {s : State} {line : Nat} (h : ¬jobQueued s line = true) : ∀ j ∈ s.health.queue,
    j.line ≠ line := by
  simpa [jobQueued] using h

theorem not_jobInFlight {s : State} {line : Nat} (h : ¬jobInFlight s line = true) :
    ∀ j ∈ s.health.jobs, j.line ≠ line := by
  simpa [jobInFlight] using h

theorem removeCandidate_kept (line : Nat) (s : State) : KeptAll s (removeCandidate line s) :=
  .setHealth _ (HealthOk.filterCandidates _) jobs_fit

theorem removeQueuedJob_kept (line : Nat) (s : State) : KeptAll s (removeQueuedJob line s) :=
  .setHealth _ (HealthOk.filterQueue _) jobs_fit

theorem candidateLost_kept (line : Nat) (s : State) : KeptAll s (candidateLost line s) :=
  (post_kept _ s).trans (writeIncident_kept _ _)

/-- The Remap Unit with its no-data queue, its work list and its flags changed: table, records and pool stay. -/
theorem KeptAll.setNoData {s : State} (q : List NoDataRequest) (asked : Bool)
    (length : s.remap.noData.length ≤ 16 → q.length ≤ 16) :
    KeptAll s { s with remap := { s.remap with noData := q, noDataAsked := asked } } :=
  .setRemap _ length id fun _ => id

theorem requestNoData_kept (line : Nat) (origin : Origin) (s : State) : KeptAll s (requestNoData line origin s) := by
  unfold requestNoData
  split_ifs with present full
  · exact .refl s
  · exact candidateLost_kept line s
  · refine .setNoData _ _ fun _ => ?_
    rw [List.length_append]
    exact Nat.lt_of_not_le full

theorem offer_kept (line : Nat) (source : Source) (s : State) : KeptAll s (offer line source s) := by
  unfold offer
  dsimp only
  split_ifs with candidate noData inFlight full
  · exact .refl s
  · exact .refl s
  · exact .refl s
  · exact (removeQueuedJob_kept line s).trans (requestNoData_kept _ _ _)
  · refine (writeIncident_kept _ _).after ((post_kept _ _).after (.after (.setHealth _ (fun ok => ?_) jobs_fit)
      (removeQueuedJob_kept line s)))
    exact ok.addCandidate _ (Nat.lt_of_not_le full) (not_isCandidate candidate)
      (fun j hj => by simpa using (List.mem_filter.1 hj).2) (not_jobInFlight inFlight)

theorem need_kept (line : Nat) (reason : Reason) (s : State) : KeptAll s (need line reason s) := by
  unfold need
  split_ifs with present candidate full
  · exact .refl s
  · exact .refl s
  · exact post_kept _ s
  · simp only [Bool.or_eq_true, not_or] at present
    exact .setHealth _ (fun ok => ok.addQueued _ (Nat.lt_of_not_le full) (not_jobQueued present.1)
      (not_isCandidate candidate)) jobs_fit

theorem endJob_kept (line : Nat) (s : State) : KeptAll s (endJob line s) :=
  (dropClaim_kept _ _ _).after
    (.setHealth _ (HealthOk.filterJobs _) fun ok => (List.length_filter_le _ _).trans (jobs_fit ok))

end Sys2Proof.Machine
end

section
namespace Sys2Proof.Machine

/-! #### The Posting Buffer and the courses -/

/-- What the rules of the age list read: lines and states of the entries, and the drain's line (R54, R59). -/
theorem bufferOk_congr {s : State} {b : PostingBuffer}
    (entries : b.entries.map (fun e => (e.line, e.state)) = s.buffer.entries.map fun e => (e.line, e.state))
    (drain : b.drain.map (·.line) = s.buffer.drain.map (·.line)) :
    bufferOk { s with buffer := b } = bufferOk s := by
  have shape (l : List SystemEntry) : l.Pairwise entryOrder
      ↔ (l.map fun e => (e.line, e.state)).Pairwise fun x y => x.1 = y.1 → x.2 = .draining ∧ y.2 = .pending := by
    rw [List.pairwise_map]
  have lines (l : List SystemEntry) : (l.filter fun e => e.state == .draining).map (·.line)
      = ((l.map fun e => (e.line, e.state)).filter fun x => x.2 == .draining).map Prod.fst := by
    rw [List.filter_map, List.map_map]
    rfl
  have single (d : Option Course) : (d.map fun c => [c.line]) = (d.map (·.line)).map fun l => [l] := by
    cases d <;> rfl
  rw [Bool.eq_iff_iff, bufferOk_iff, bufferOk_iff, shape, shape, lines, lines, single, single, entries, drain]

theorem KeptAll.setBuffer_same {s : State} (b : PostingBuffer)
    (entries : b.entries.map (fun e => (e.line, e.state)) = s.buffer.entries.map fun e => (e.line, e.state))
    (drain : b.drain.map (·.line) = s.buffer.drain.map (·.line)) (reserve : b.reserve = s.buffer.reserve) :
    KeptAll s { s with buffer := b } := by
  have length : b.entries.length = s.buffer.entries.length := by simpa using congrArg List.length entries
  refine .setBuffer b (fun ok => (bufferOk_congr entries drain).trans ok) fun ok => ?_
  rw [reserveOk_iff] at ok ⊢
  change _ ∧ b.entries.length ≤ 32 - b.reserve ∧ s.health.jobs.length ≤ b.reserve ∧ _
  rw [reserve, length]
  exact ok

/-- A change of an entry that keeps its line and its state. -/
theorem map_entries_same {f : SystemEntry → SystemEntry} (line : ∀ e, (f e).line = e.line)
    (state : ∀ e, (f e).state = e.state) (l : List SystemEntry) :
    (l.map f).map (fun e => (e.line, e.state)) = l.map fun e => (e.line, e.state) := by
  simp [line, state]

theorem mergeEntry_kept (line : Nat) (mask : Mask) (data : LineData) (s : State) :
    KeptAll s (mergeEntry line mask data s) := by
  refine .setBuffer_same _ (map_entries_same (fun e => ?_) (fun e => ?_) _) rfl rfl <;> split <;> rfl

theorem systemCapacity_le (s : State) : systemCapacity s ≤ 32 - s.buffer.reserve := by
  rw [systemCapacity_eq]
  split
  · exact Nat.min_le_left _ _
  · exact le_rfl

theorem stagingCapacity_le (s : State) : stagingCapacity s ≤ s.buffer.reserve := by
  rw [stagingCapacity_eq]
  split
  · exact Nat.min_le_left _ _
  · exact le_rfl

/-- A new entry of a line with no PENDING one, in a free system entry (R52, R54, R55). -/
theorem createEntry_kept (p : Port) (line : Nat) (mask : Mask) (data : LineData) (s : State)
    (pending : ¬(pendingEntry s line).isSome = true) (free : systemEntryFree s = true) :
    KeptAll s (createEntry p line mask data s) := by
  refine .setBuffer _ (fun ok => ?_) fun ok => ?_
  · rw [bufferOk_iff] at ok ⊢
    obtain ⟨order, drain⟩ := ok
    refine ⟨List.pairwise_append.2 ⟨order, List.pairwise_singleton _ _, fun a ha b hb => ?_⟩, ?_⟩
    · rw [List.mem_singleton.1 hb]
      intro same
      refine ⟨?_, rfl⟩
      rw [pendingEntry_isSome] at pending
      cases state : a.state with
      | draining => rfl
      | pending => exact absurd ⟨a, ha, same, state⟩ pending
    · simpa [List.filter_append] using drain
  · have room := ((systemEntryFree_iff s).mp free).1
    have capacity := systemCapacity_le s
    rw [reserveOk_iff] at ok ⊢
    refine ⟨ok.1, ?_, ok.2.2⟩
    rw [List.length_append]
    exact room.trans_le capacity

theorem placePosted_kept {p : Port} {line : Nat} {mask : Mask} {data : LineData} {s t : State}
    (h : placePosted p line mask data s = some t) : KeptAll s t := by
  unfold placePosted at h
  split at h
  · cases h
    exact mergeEntry_kept line mask data s
  · next pending =>
    split at h
    · next free =>
      cases h
      exact createEntry_kept p line mask data s pending free
    · cases h

theorem setThrough_kept (serial : Nat) (f : ThroughWrite → ThroughWrite) (s : State) :
    KeptAll s (setThrough serial f s) :=
  .setPath _ id id

/-- The drain's course is replaced by one of its line. -/
theorem setCourse_kept {w : Writer} {c : Course} {s : State}
    (line : w = .drain → s.buffer.drain.map (·.line) = some c.line) : KeptAll s (setCourse w c s) := by
  cases w with
  | drain => exact .setBuffer_same _ rfl (line rfl).symm rfl
  | through n => exact setThrough_kept n _ s

theorem joinWork_kept (r : Request) (s : State) : KeptAll s (joinWork r s) := by
  have joined : KeptAll s { s with remap := { s.remap with workList := s.remap.workList ++ [r] } } := by
    refine .setRemap _ id id fun _ pool => ?_
    rw [poolOk_iff] at pool ⊢
    exact ⟨pool.1, fun _ => by simp, pool.2.2⟩
  unfold joinWork
  dsimp only
  split
  · exact joined.trans (setThrough_kept _ _ _)
  · exact joined

theorem placeCourseOp_kept (purpose : Purpose) (line : Nat) (action : OpAction) (first : Bool) (s : State) :
    KeptAll s (placeCourseOp purpose line action first s) := placeOp_kept _ s

theorem orderByGrant_kept (w : Writer) (s : State) : KeptAll s (orderByGrant w s) := by
  cases w with
  | drain => exact .refl s
  | through n => exact .setPath _ id id

/-- A course begins as its writer's course is set: what follows is an operation or a request. -/
theorem startCourse_kept {w : Writer} {line : Nat} (mask : Mask) (bytes : LineData) {r s : State}
    (set : ∀ c : Course, c.line = line → KeptAll r (setCourse w c (orderByGrant w s))) :
    KeptAll r (startCourse w line mask bytes s) := by
  unfold startCourse
  dsimp only
  split_ifs
  · exact (placeCourseOp_kept _ _ _ _ _).after (set _ rfl)
  · exact (joinWork_kept _ _).after (set _ rfl)
  · exact (placeCourseOp_kept _ _ _ _ _).after (set _ rfl)

theorem startCourse_through_kept (n line : Nat) (mask : Mask) (bytes : LineData) (s : State) :
    KeptAll s (startCourse (.through n) line mask bytes s) :=
  startCourse_kept mask bytes fun _ _ => (setCourse_kept fun h => by cases h).after (orderByGrant_kept _ s)

theorem reportLoss_kept (e : SystemEntry) (cause : LossCause) (s : State) : KeptAll s (reportLoss e cause s) := by
  have reported (i : Incident) : KeptAll s (writeIncident i (post .dataLoss s)) :=
    (writeIncident_kept i _).after (post_kept _ s)
  unfold reportLoss
  dsimp only
  split
  · exact .after (.setMgmt _ rfl id fun _ n busy => by cases busy) (reported _)
  · exact reported _

/-- The drain in progress leaves with its entry (R66). -/
theorem leaveDrain_kept (s : State) :
    KeptAll s
      { s with
        buffer :=
          { s.buffer with
            entries := s.buffer.entries.filter fun x => x.state != .draining
            drain := none } } := by
  refine .setBuffer _ (fun ok => ?_) fun ok => ?_
  · rw [bufferOk_iff] at ok ⊢
    refine ⟨ok.1.sublist List.filter_sublist, ?_⟩
    have none : (s.buffer.entries.filter fun x => x.state != .draining).filter (fun e => e.state == .draining)
        = [] := by
      rw [List.filter_filter, List.filter_eq_nil_iff]
      intro e _
      cases e.state <;> simp
    rw [none]
    rfl
  · rw [reserveOk_iff] at ok ⊢
    exact ⟨ok.1, (List.length_filter_le _ _).trans ok.2.1, ok.2.2⟩

theorem endDrain_kept (e : Ending) (s : State) : KeptAll s (endDrain e s) := by
  unfold endDrain
  split
  · exact .refl s
  · dsimp only
    split
    · exact (dropClaim_kept _ _ _).after ((leaveDrain_kept _).after (reportLoss_kept _ _ s))
    · exact (dropClaim_kept _ _ _).after (leaveDrain_kept s)

theorem dropThrough_kept (t : ThroughWrite) (s : State) : KeptAll s (dropThrough t s) :=
  (dropClaim_kept _ _ _).after (.setPath _ id id)

theorem answerThrough_kept (t : ThroughWrite) (code : ResponseCode) (s : State) :
    KeptAll s (answerThrough t code s) := by
  unfold answerThrough
  split
  · exact answer_kept _ _ _ s
  · exact .refl s

theorem endThrough_kept (serial : Nat) (e : Ending) (s : State) : KeptAll s (endThrough serial e s) := by
  unfold endThrough
  split
  · exact .refl s
  · exact (answerThrough_kept _ _ _).after (dropThrough_kept _ s)

theorem endCourse_kept (w : Writer) (e : Ending) (s : State) : KeptAll s (endCourse w e s) := by
  cases w with
  | drain => exact endDrain_kept e s
  | through n => exact endThrough_kept n e s

theorem recordOrEnd_kept (w : Writer) (c : Course) (s : State) : KeptAll s (recordOrEnd w c s) := by
  unfold recordOrEnd
  split
  · exact endCourse_kept w _ s
  · exact joinWork_kept _ s
  · exact joinWork_kept _ s

theorem claimThrough_kept (t : ThroughWrite) (s : State) : KeptAll s (claimThrough t s) := by
  have requested := (requestClaim_kept t.course.line .exclusive (.through t.serial) _).after
    (setThrough_kept t.serial (fun t => { t with stage := .waitClaim }) s)
  unfold claimThrough
  dsimp only
  split
  · exact (startCourse_through_kept _ _ _ _ _).after requested
  · exact requested

/-! #### The Remap Unit -/

theorem RemapOk.set_table {r : RemapUnit} (line : Nat) (e : RemapEntry) (ok : RemapOk r) :
    RemapOk { r with table := sparseSet r.table line e } :=
  ok.imp_left (sparseWf_set _ _ _)

theorem RemapOk.insert_dead {r : RemapUnit} (slot : Nat) (ok : RemapOk r) :
    RemapOk { r with dead := insertNat r.dead slot } :=
  ok.imp_right (And.imp_right (pairwise_insertNat _ _))

theorem setRecord_kept (slot : Nat) (r : SlotRecord) (s : State) : KeptAll s (setRecord slot r s) := by
  refine .setRemap _ id (fun ok => ?_) fun _ => id
  obtain ⟨table, ⟨rising, held⟩, dead⟩ := ok
  have set (r : SlotRecord) (h : r ≠ .free) : sparseWf (sparseSet s.remap.records slot r) = true
      ∧ ∀ p ∈ sparseSet s.remap.records slot r, p.2 ≠ .free := by
    refine ⟨sparseWf_set _ _ _ rising, fun p hp => ?_⟩
    rcases mem_sparseSet hp with rfl | hp
    · exact h
    · exact held p hp
  cases r with
  | free => exact ⟨table, ⟨sparseWf_del _ _ rising, fun p hp => held p (List.mem_of_mem_filter hp)⟩, dead⟩
  | inUse => exact ⟨table, set _ (by simp), dead⟩
  | dead => exact ⟨table, set _ (by simp), dead⟩

/-- A slot that goes DEAD in pool and record. -/
theorem killRecord_kept (slot : Nat) (s : State) :
    KeptMost s (setRecord slot .dead { s with remap := { s.remap with dead := insertNat s.remap.dead slot } }) :=
  (setRecord_kept slot .dead _).toKeptMost.after (.setRemap _ id (RemapOk.insert_dead slot))

theorem killSlot_kept (slot : Nat) (s : State) : KeptMost s (killSlot slot s) :=
  (postThresholds_kept _ _).toKeptMost.after (killRecord_kept slot s)

theorem killSlot_table (slot : Nat) (s : State) : (killSlot slot s).remap.table = s.remap.table := by
  simp [killSlot]

theorem killSlot_dead (slot : Nat) (s : State) : (killSlot slot s).remap.dead = insertNat s.remap.dead slot := by
  simp [killSlot]

theorem killSlot_workList (slot : Nat) (s : State) : (killSlot slot s).remap.workList = s.remap.workList := by
  simp [killSlot]

/-- A FREE slot goes DEAD (R103). -/
theorem SlotsOk.kill {slots dead : List Nat} {slot : Nat} (ok : SlotsOk slots dead) (exist : slot < 4096)
    (free : slot ∉ slots) : SlotsOk slots (insertNat dead slot) := by
  refine ⟨ok.1, fun n hn => ⟨(ok.2.1 n hn).1, fun hd => ?_⟩, fun n hn => ?_⟩
  · rcases (mem_insertNat _ _ _).1 hd with rfl | hd
    · exact free hn
    · exact (ok.2.1 n hn).2 hd
  · rcases (mem_insertNat _ _ _).1 hn with rfl | hn
    · exact exist
    · exact ok.2.2 n hn

theorem SlotsOk.perm {slots slots' dead : List Nat} (p : slots'.Perm slots) (ok : SlotsOk slots dead) :
    SlotsOk slots' dead :=
  ⟨p.nodup_iff.2 ok.1, fun n hn => ok.2.1 n (p.mem_iff.1 hn), ok.2.2⟩

/-- A FREE slot comes into use (R103, R110). -/
theorem SlotsOk.bind {slots dead : List Nat} {slot : Nat} (ok : SlotsOk slots dead) (exist : slot < 4096)
    (alive : slot ∉ dead) (free : slot ∉ slots) : SlotsOk (slot :: slots) dead := by
  refine ⟨List.nodup_cons.2 ⟨free, ok.1⟩, fun n hn => ?_, ok.2.2⟩
  rcases List.mem_cons.1 hn with rfl | hn
  · exact ⟨exist, alive⟩
  · exact ok.2.1 n hn

/-- A key without a value: giving it one adds it. -/
theorem sparseSet_perm {α : Type} {l : List (Nat × α)} {k : Nat} (v : α) (h : sparseGet l k = none) :
    (sparseSet l k v).Perm ((k, v) :: l) := by
  induction l with
  | nil => exact .refl _
  | cons a l ih =>
    obtain ⟨x, y⟩ := a
    simp only [sparseGet] at h
    split at h
    · cases h
    · next ne =>
      simp only [sparseSet, ne, if_false]
      split
      · exact .refl _
      · exact ((ih h).cons _).trans (.swap _ _ _)

/-- A key with a value: giving it one replaces that value. -/
theorem sparseSet_split {α : Type} {l : List (Nat × α)} {k : Nat} {old : α} (v : α) (rising : sparseWf l = true)
    (h : sparseGet l k = some old) :
    ∃ before after, l = before ++ (k, old) :: after ∧ sparseSet l k v = before ++ (k, v) :: after := by
  simp only [sparseWf, decide_eq_true_eq] at rising
  induction l with
  | nil => cases h
  | cons a l ih =>
    obtain ⟨x, y⟩ := a
    rw [List.map_cons, List.pairwise_cons] at rising
    simp only [sparseGet] at h
    split at h
    · next same =>
      cases h
      subst same
      exact ⟨[], l, rfl, by simp [sparseSet]⟩
    · next ne =>
      obtain ⟨before, after, rfl, set⟩ := ih h rising.2
      have above : x < k := rising.1 k (by simp)
      refine ⟨(x, y) :: before, after, rfl, ?_⟩
      rw [sparseSet, if_neg (by omega), if_neg ne, set]
      rfl

/-- The pool when nothing is served is its slots. -/
theorem poolOk_idle {s : State} (serving : s.remap.serving = none) (ok : SlotsOk (tableSlots s) s.remap.dead) :
    poolOk s = true := by
  rw [poolOk_iff, serving]
  exact ⟨ok, nofun, nofun⟩

theorem poolOk_slots {s : State} (ok : poolOk s = true) : SlotsOk (tableSlots s) s.remap.dead :=
    ((poolOk_iff s).mp ok).1

/-- The head of the work list has its outcome: what is left of the Remap Unit. -/
theorem conclude_remap {s : State} {r : Request} {rest : List Request} (v : Verdict)
    (h : s.remap.workList = r :: rest) :
    (conclude v s).remap = { s.remap with workList := rest, serving := none } := by
  unfold conclude
  rw [h]
  dsimp only
  split
  case h_1 => split <;> simp
  case h_5 => split <;> simp
  all_goals simp

theorem popWork_kept (rest : List Request) (s : State) :
    KeptAll s { s with remap := { s.remap with workList := rest, serving := none } } :=
  .setRemap _ id id fun _ pool => poolOk_idle rfl (poolOk_slots (s := s) pool)

theorem conclude_kept (v : Verdict) (s : State) : KeptAll s (conclude v s) := by
  unfold conclude
  split
  · exact .refl s
  · next r rest _ =>
    have popped := popWork_kept rest s
    dsimp only
    split
    · exact (endCourse_kept _ _ _).after (.ite (fun _ => (removeCandidate_kept _ _).after popped) fun _ => popped)
    · exact (endJob_kept _ _).after popped
    · exact (endCourse_kept _ _ _).after popped
    · exact (endCourse_kept _ _ _).after popped
    · next line origin _ =>
      have dropped := (dropClaim_kept line .noData _).after popped
      exact .ite (fun _ => dropped) fun _ => (candidateLost_kept _ _).after dropped

/-- The outcome of a served request leaves the pool to its slots. -/
theorem conclude_pool {v : Verdict} {s : State} (head : s.remap.workList ≠ [])
    (ok : SlotsOk (tableSlots s) s.remap.dead) :
    poolOk (conclude v s) = true := by
  obtain ⟨r, rest, work⟩ := List.exists_cons_of_ne_nil head
  refine poolOk_idle (by rw [conclude_remap v work]) ?_
  simpa only [tableSlots, conclude_remap v work] using ok

/-- What the head of the work list waits for is noted; its trial slot, if it has one, is FREE (R108). -/
theorem setServing_kept {v : Serving} {s : State} (head : s.remap.workList ≠ [])
    (free : poolOk s = true → ∀ slot, v.trial = some slot → freeSlot s slot = true) : KeptAll s (setServing v s) := by
  refine .setRemap _ id id fun _ pool => ?_
  have trial := free pool
  rw [poolOk_iff] at pool ⊢
  exact ⟨pool.1, fun _ => head, trial⟩

theorem requestImage_kept (slot : Nat) (s : State) : KeptAll s (requestImage slot s) := requestMeta_kept _ _ s

theorem freeSlot_congr {s t : State} (table : t.remap.table = s.remap.table) (dead : t.remap.dead = s.remap.dead)
    (slot : Nat) : freeSlot t slot = freeSlot s slot := by
  simp only [freeSlot, table, dead]

theorem head_of_record {s : State} {x : Nat × DataState × Origin}
    (h : s.remap.workList.head?.bind Request.record = some x) : s.remap.workList ≠ [] := by
  rintro none
  rw [none] at h
  cases h

theorem placeInUse_kept {slot : Nat} {s : State} (free : poolOk s = true → freeSlot s slot = true) :
    KeptAll s (placeInUse slot s) := by
  unfold placeInUse
  split
  · exact .refl s
  · next line data origin record =>
    have recorded := setRecord_kept slot (.inUse line data origin (nextGeneration s line)) s
    refine (requestImage_kept _ _).after ⟨?_, fun sparse pool => ?_⟩
    · exact .after (.setRemap _ id id) recorded.toKeptMost
    · have still := recorded.pool sparse pool
      have trial := free pool
      rw [poolOk_iff] at still ⊢
      refine ⟨still.1, fun _ => head_of_record record, fun n hn => ?_⟩
      cases hn
      exact trial

/-- The lowest FREE slot is FREE. -/
theorem freeSlot_of_lowestFree {s : State} {slot : Nat} (h : lowestFree s = some slot) : freeSlot s slot = true := by
  obtain ⟨free, -, bound⟩ := lowestFreeFrom_spec s slot _ 0 h
  obtain ⟨alive, unnamed⟩ := (poolState_free s slot).mp free
  rw [freeSlot_iff]
  refine ⟨by simpa using bound, alive, fun named => ?_⟩
  obtain ⟨p, hp, same⟩ := List.mem_map.1 named
  exact unnamed p hp same

theorem judgeReassign_kept (s : State) : KeptAll s (judgeReassign s) := by
  unfold judgeReassign
  split
  · exact conclude_kept _ s
  · split
    · exact conclude_kept _ s
    · next slot lowest =>
      have free := freeSlot_of_lowestFree lowest
      split
      · next work =>
        refine (placeCourseOp_kept _ _ _ _ _).after (setServing_kept (by simp [work]) fun _ n hn => ?_)
        cases hn
        exact free
      · exact placeInUse_kept fun _ => free
      · exact .refl s

theorem trial_free {s : State} {slot : Nat} (h : s.remap.serving.bind Serving.trial = some slot)
    (ok : poolOk s = true) :
    freeSlot s slot = true := ((poolOk_iff s).mp ok).2.2 slot h

theorem trial_head {s : State} {slot : Nat} (h : s.remap.serving.bind Serving.trial = some slot)
    (ok : poolOk s = true) :
    s.remap.workList ≠ [] := by
  refine ((poolOk_iff s).mp ok).2.1 ?_
  cases serving : s.remap.serving with
  | none => simp [serving] at h
  | some v => rfl

/-- The slots when the trial slot has gone DEAD (R113). -/
theorem SlotsOk.killTrial {s : State} {slot : Nat} (h : s.remap.serving.bind Serving.trial = some slot)
    (ok : poolOk s = true) : SlotsOk (tableSlots (killSlot slot s)) (killSlot slot s).remap.dead := by
  obtain ⟨exist, -, unnamed⟩ := (freeSlot_iff s slot).mp (trial_free h ok)
  rw [tableSlots, killSlot_table, killSlot_dead]
  exact (poolOk_slots ok).kill exist unnamed

/-- The trial slot goes DEAD and the request at the head has its outcome (R113). -/
theorem concludeKilled_kept {v : Verdict} {slot : Nat} {s : State}
    (h : s.remap.serving.bind Serving.trial = some slot) :
    KeptAll s (conclude v (killSlot slot s)) := by
  refine ⟨(conclude_kept v _).toKeptMost.after (killSlot_kept slot s), fun _ ok => conclude_pool ?_ (.killTrial h ok)⟩
  rw [killSlot_workList]
  exact trial_head h ok

theorem spareDone_kept {slot : Nat} {s : State} (ok : Bool) (serving : s.remap.serving = some (.spare slot)) :
    KeptAll s (spareDone slot ok s) := by
  have trial : s.remap.serving.bind Serving.trial = some slot := by rw [serving]; rfl
  unfold spareDone
  dsimp only
  split_ifs
  · exact conclude_kept _ s
  · exact placeInUse_kept (trial_free trial)
  · exact concludeKilled_kept trial
  · refine (requestImage_kept _ _).after ⟨.after (.setRemap _ id id) (killSlot_kept slot s), fun _ pool => ?_⟩
    have head := trial_head trial pool
    rw [poolOk_iff]
    refine ⟨.killTrial trial pool, fun _ => ?_, nofun⟩
    simpa [killSlot_workList] using head

/-- The slots when a line with no entry gets one (R110). -/
theorem SlotsOk.live_new {s : State} {line slot : Nat} {e : RemapEntry} (ok : poolOk s = true)
    (free : freeSlot s slot = true) (new : remapEntry s line = none) (here : e.slot = slot) :
    SlotsOk ((sparseSet s.remap.table line e).map (·.2.slot)) s.remap.dead := by
  obtain ⟨exist, alive, unnamed⟩ := (freeSlot_iff s slot).mp free
  refine .perm ((sparseSet_perm e new).map _) ?_
  rw [List.map_cons, here]
  exact (poolOk_slots ok).bind exist alive unnamed

/-- The slots when a line's entry is replaced and its former slot goes DEAD (R110, R111). -/
theorem SlotsOk.live_again {s : State} {line slot : Nat} {e old : RemapEntry} (rising : sparseWf s.remap.table = true)
    (ok : SlotsOk (tableSlots s) s.remap.dead) (free : freeSlot s slot = true) (former : remapEntry s line = some old)
    (here : e.slot = slot) :
    SlotsOk ((sparseSet s.remap.table line e).map (·.2.slot)) (insertNat s.remap.dead old.slot) := by
  obtain ⟨exist, alive, unnamed⟩ := (freeSlot_iff s slot).mp free
  obtain ⟨before, after, table, set⟩ := sparseSet_split e rising former
  have slots : (tableSlots s).Perm (old.slot :: (before ++ after).map (·.2.slot)) := by
    rw [tableSlots, table]
    exact (List.perm_middle.map _)
  have others := ok.perm slots.symm
  have rest : SlotsOk ((before ++ after).map (·.2.slot)) (insertNat s.remap.dead old.slot) := by
    refine .kill ⟨(List.nodup_cons.1 others.1).2, fun n hn => others.2.1 n (List.mem_cons_of_mem _ hn), others.2.2⟩
      (others.2.1 _ List.mem_cons_self).1 (List.nodup_cons.1 others.1).1
  refine .perm (slots' := _) (slots := slot :: (before ++ after).map (·.2.slot)) ?_ ?_
  · rw [set, ← here]
    exact List.perm_middle.map _
  · refine rest.bind exist (fun dead => ?_) fun named => ?_
    · rcases (mem_insertNat _ _ _).1 dead with same | dead
      · exact unnamed (same ▸ slots.mem_iff.2 List.mem_cons_self)
      · exact alive dead
    · exact unnamed (slots.mem_iff.2 (List.mem_cons_of_mem _ named))

theorem goLive_kept {slot : Nat} {s : State} (serving : s.remap.serving = some (.inUse slot)) :
    KeptAll s (goLive slot s) := by
  have trial : s.remap.serving.bind Serving.trial = some slot := by rw [serving]; rfl
  have told (before : Nat) (i : Incident) (line : Nat) (t : State) :
      KeptAll t (removeQueuedJob line (writeIncident i (post .remapped (postThresholds before t)))) :=
    (removeQueuedJob_kept _ _).after ((writeIncident_kept _ _).after ((post_kept _ _).after (postThresholds_kept _ _)))
  unfold goLive
  split
  · exact .refl s
  · next line data origin record =>
    have head := head_of_record record
    cases former : remapEntry s line with
    | none =>
      dsimp only
      refine ⟨(conclude_kept _ _).toKeptMost.after
        ((told _ _ _ _).toKeptMost.after (.setRemap _ id (RemapOk.set_table _ _))),
        fun _ pool => conclude_pool (by simpa using head) ?_⟩
      simpa [tableSlots] using SlotsOk.live_new (e := ⟨slot, data, origin, nextGeneration s line⟩) pool
        (trial_free trial pool) former rfl
    | some f =>
      dsimp only
      have slots (sparse : sparseOk s = true) (pool : poolOk s = true) :=
        SlotsOk.live_again (e := ⟨slot, data, origin, nextGeneration s line⟩) ((sparseOk_iff s).mp sparse).1.1
          (poolOk_slots pool) (trial_free trial pool) former rfl
      have live (before : Nat) (i : Incident) (e : RemapEntry) := (told before i line _).toKeptMost.after
        ((killRecord_kept f.slot _).after (.setRemap (s := s) { s.remap with table := sparseSet s.remap.table line e }
          id
          (RemapOk.set_table _ _)))
      split
      · refine ⟨(conclude_kept _ _).toKeptMost.after (live _ _ _), fun sparse pool =>
          conclude_pool (by simpa using head) ?_⟩
        simpa [tableSlots] using slots sparse pool
      · refine (requestImage_kept _ _).after ⟨.after (.setRemap _ id id) (live _ _ _), fun sparse pool => ?_⟩
        rw [poolOk_iff]
        refine ⟨?_, fun _ => by simpa using head, nofun⟩
        simpa [tableSlots] using slots sparse pool

theorem setDataState_kept (line : Nat) (data : DataState) (s : State) : KeptAll s (setDataState line data s) := by
  unfold setDataState
  split
  · exact .refl s
  · next e entry =>
    refine .setRemap _ id (RemapOk.set_table _ _) fun ok pool => ?_
    obtain ⟨before, after, table, set⟩ := sparseSet_split { e with data := data } ok.1 entry
    have slots : (sparseSet s.remap.table line { e with data := data }).map (·.2.slot) = tableSlots s := by
      rw [set, tableSlots, table]
      simp
    rw [poolOk_iff] at pool ⊢
    simpa only [tableSlots, freeSlot_iff, slots] using pool

theorem beginRecording_kept {line : Nat} {known : Mask} {s : State} (head : s.remap.workList ≠ []) :
    KeptAll s (beginRecording line known s) := by
  unfold beginRecording
  split
  · exact conclude_kept _ s
  · dsimp only
    split
    · exact (conclude_kept _ _).after ((setDataState_kept _ _ _).after (setRecord_kept _ _ s))
    · exact (requestImage_kept _ _).after ((setServing_kept (by simpa using head) fun _ n hn => by cases hn).after
        (setRecord_kept _ _ s))

theorem storageToReassign_kept (s : State) : KeptAll s (storageToReassign s) := by
  unfold storageToReassign
  split
  · exact (judgeReassign_kept _).after (popWork_kept _ s)
  · exact .refl s

theorem serveStorage_kept (s : State) : KeptAll s (serveStorage s) := by
  unfold serveStorage
  split
  · next work =>
    split_ifs
    · exact conclude_kept _ s
    · exact (placeCourseOp_kept _ _ _ _ _).after (setServing_kept (by simp [work]) fun _ n hn => by cases hn)
    · exact storageToReassign_kept s
  · exact .refl s

theorem storageDone_kept (ok : Bool) (s : State) : KeptAll s (storageDone ok s) := by
  unfold storageDone
  split
  · next work =>
    split
    · exact beginRecording_kept (by simp [work])
    · exact storageToReassign_kept s
  · exact .refl s

theorem imageDone_kept (ok : Bool) (s : State) : KeptAll s (imageDone ok s) := by
  unfold imageDone
  split
  · split
    · exact judgeReassign_kept s
    · exact conclude_kept _ s
  · next serving =>
    split
    · exact goLive_kept serving
    · exact concludeKilled_kept (by rw [serving]; rfl)
  · exact conclude_kept _ s
  · exact (conclude_kept _ _).after (setDataState_kept _ _ s)
  all_goals exact .refl s

theorem imageWithdrawn_kept (s : State) : KeptAll s (imageWithdrawn s) := by
  unfold imageWithdrawn
  split
  · exact conclude_kept _ s
  · exact (conclude_kept _ _).after (setRecord_kept _ _ s)
  · exact conclude_kept _ s
  · exact (conclude_kept _ _).after (setDataState_kept _ _ s)
  all_goals exact .refl s

theorem settingsFailed_kept (s : State) : KeptAll s (settingsFailed s) := by
  unfold settingsFailed
  split
  · exact complete_kept _ s
  · exact complete_kept _ s
  · exact .refl s

theorem withdrawn_kept (t : MetaLine) (a : MetaAsker) (s : State) : KeptAll s (withdrawn t a s) := by
  cases a with
  | remap => exact imageWithdrawn_kept s
  | command => exact settingsFailed_kept s
  | repair => exact .setMetaCtl _ s

theorem withdrawOp_kept (o : ArrayOp) (s : State) : KeptAll s (withdrawOp o s) := by
  unfold withdrawOp
  split
  · exact .foldl (fun t a => withdrawn_kept _ a t) _ s
  · exact .refl s

theorem setFault_kept (s : State) : KeptAll s (setFault s) := by
  unfold setFault
  split
  · exact .refl s
  · have faulted : KeptAll s (post .metadataFault { s with remap := { s.remap with fault := true } }) :=
      (post_kept _ _).after (.setRemap _ id id fun _ => id)
    have gone (l : List ArrayOp) := KeptAll.after (.foldl (fun t o => withdrawOp_kept o t) l _)
      ((removeWork_kept (·.withdrawable) _).after faulted)
    dsimp only
    split
    · exact (setPhase_kept _ _).after (.after (.setMetaCtl _ _) (gone _))
    · exact gone _

theorem settingsDone_kept (s : State) : KeptAll s (settingsDone s) := by
  unfold settingsDone
  split
  · exact complete_kept _ s
  · exact complete_kept _ s
  · split
    · exact complete_kept _ s
    · exact (requestMeta_kept _ _ _).after (.setMgmt _ rfl id fun _ n busy => by cases busy)
  · exact .refl s

theorem deliver_kept (ok : Bool) (a : MetaAsker) (s : State) : KeptAll s (deliver ok a s) := by
  cases a with
  | remap => exact imageDone_kept ok s
  | command => exact .ite (fun _ => settingsDone_kept s) fun _ => settingsFailed_kept s
  | repair => exact .refl s

theorem metaProgramDone_kept (t : MetaLine) (askers : List MetaAsker) (ok : Bool) (s : State) :
    KeptAll s (metaProgramDone t askers ok s) := by
  refine (advanceRepair_kept _).after (.after (.foldl (fun t a => deliver_kept ok a t) _ _) ?_)
  cases ok
  · exact setFault_kept s
  · exact .setMetaCtl _ s

end Sys2Proof.Machine
end

section
namespace Sys2Proof.Machine

/-! #### The scheduler, reads and withdrawals -/

theorem issueNext_kept (s : State) : KeptAll s (issueNext s) := by
  unfold issueNext
  split
  · exact .refl s
  · split
    · exact .refl s
    · next o _ =>
      have issued : KeptAll s
          { s with link := { s.link with work := s.link.work.erase o, inFlight := some (atIssue s o) } } :=
        .setLink _ id
      unfold issueOp
      dsimp only
      split
      · exact (setThrough_kept _ _ _).after issued
      · exact issued

theorem grantReturns_kept (s : State) : KeptAll s (grantReturns s) := by
  have returned : KeptAll s { s with link := { s.link with unavailable := false, waitTicks := 0 } } := .setLink _ id
  unfold grantReturns
  dsimp only
  split
  · exact (post_kept _ _).after returned
  · exact returned

theorem grantFalls_kept (s : State) : KeptAll s (grantFalls s) := by
  unfold grantFalls
  split
  · exact (post_kept _ _).after (.setLink _ id)
  · exact .refl s

theorem answerRead_kept (r : SystemRead) (x : Response) (s : State) : KeptAll s (answerRead r x s) :=
  .ite (fun _ => answer_kept _ _ _ s) fun _ => .refl s

theorem refuseRead_kept (r : SystemRead) (code : ResponseCode) (s : State) : KeptAll s (refuseRead r code s) :=
  answerRead_kept r _ s

theorem endRead_kept (r : SystemRead) (s : State) : KeptAll s (endRead r s) :=
  (dropClaim_kept _ _ _).after (.setPath _ id id)

theorem withdrawRead_kept (r : SystemRead) (s : State) : KeptAll s (withdrawRead r s) :=
  (endRead_kept r _).after (removeWork_kept _ s)

theorem readGranted_kept (r : SystemRead) (s : State) : KeptAll s (readGranted r s) :=
  .ite (fun _ => (endRead_kept r _).after (refuseRead_kept r _ s)) fun _ => placeRead_kept _ _ s

theorem withdrawThrough_kept (t : ThroughWrite) (s : State) : KeptAll s (withdrawThrough t s) :=
  (dropThrough_kept t _).after (removeWork_kept _ s)

theorem withdrawRequests_kept (w : Writer) (s : State) : KeptAll s (withdrawRequests w s) := by
  refine .setRemap _ id id fun _ pool => ?_
  rw [poolOk_iff] at pool ⊢
  obtain ⟨slots, head, trial⟩ := pool
  refine ⟨slots, fun served => ?_, fun slot hs => ?_⟩
  · split at served
    · cases served
    · next other =>
      obtain ⟨r, rest, work⟩ := List.exists_cons_of_ne_nil (head served)
      have stays : r.writer ≠ some w := by simpa [work] using other
      simp [work, stays]
  · split at hs
    · cases hs
    · exact trial slot hs

theorem orphanThrough_kept (t : ThroughWrite) (s : State) : KeptAll s (orphanThrough t s) := setThrough_kept _ _ s

theorem answerWaiting_kept (code : ResponseCode) (s : State) : KeptAll s (answerWaiting code s) :=
  .after (.setBuffer _ id id) (.foldl (fun t (w : WaitingWrite) => answer_kept w.port w.serial _ t) _ s)

theorem expireThrough_kept (t : ThroughWrite) (s : State) : KeptAll s (expireThrough t s) := by
  unfold expireThrough
  split
  · exact .refl s
  · exact .ite (fun _ => (orphanThrough_kept t _).after (answerThrough_kept t _ s)) fun _ =>
      (withdrawThrough_kept t _).after (answerThrough_kept t _ s)

theorem expire_kept (s : State) : KeptAll s (expire s) := by
  have reads (s : State) (l : List SystemRead) :
      KeptAll s (l.foldl (fun t r => withdrawRead r (refuseRead r .unavailable t)) s) :=
    .foldl (fun t r => (withdrawRead_kept r _).after (refuseRead_kept r _ t)) l s
  have throughs (s : State) (l : List ThroughWrite) : KeptAll s (l.foldl (fun t w => expireThrough w t) s) :=
    .foldl (fun t w => expireThrough_kept w t) l s
  exact (answerWaiting_kept _ _).after ((throughs _ _).after
    ((reads _ _).after ((post_kept _ _).after (.setLink _ id))))

/-! #### Intake -/

theorem takeTransaction_kept (p : Port) (tx : Transaction) (s : State) : KeptAll s (takeTransaction p tx s) := by
  unfold takeTransaction
  split
  · exact .refl s
  · next open_ =>
    have room : (queueOf s p).length < 8 := by
      simp only [not_or, Nat.not_le] at open_
      exact open_.2
    cases p
    · exact .setPath _ (fun _ => by simpa using room) id
    · exact .setPath _ id fun _ => by simpa using room

/-- Changes of range watches that keep their ranges (R144). -/
theorem WatchOk.mapRanges {u : Nat} {w : WatchUnit} {ranges : List RangeWatch}
    (same : ranges.map (fun r => (r.first, r.last)) = w.ranges.map fun r => (r.first, r.last)) (ok : WatchOk u w) :
    WatchOk u { w with ranges := ranges } := by
  obtain ⟨⟨rl, tl⟩, sequence, order, limits⟩ := ok
  have back (r : RangeWatch) (h : r ∈ ranges) : ∃ x ∈ w.ranges, x.first = r.first ∧ x.last = r.last := by
    have := List.mem_map_of_mem (f := fun r : RangeWatch => (r.first, r.last)) h
    rw [same] at this
    simpa using this
  refine ⟨⟨?_, tl⟩, sequence, fun r hr => ?_, fun limit => ⟨fun r hr => ?_, (limits limit).2⟩⟩
  · simpa using (congrArg List.length same).trans (List.length_map _) |>.trans rl
  · obtain ⟨x, hx, first, last⟩ := back r hr
    exact first ▸ last ▸ order x hx
  · obtain ⟨x, hx, -, last⟩ := back r hr
    exact last ▸ (limits limit).1 x hx

theorem WatchOk.setIndex {u : Nat} {w : WatchUnit} (i : Nat) (armed : Bool) (below : 1 ≤ w.count → i < w.count)
    (ok : WatchOk u w) : WatchOk u { w with index := i, armed := armed } :=
  ⟨ok.1, ⟨ok.2.1.1, below ok.2.1.1.1⟩, ok.2.2⟩

theorem watchStep_kept (p : Port) (tx : Transaction) (s : State) : KeptAll s (watchStep p tx s) := by
  unfold watchStep
  split
  · exact .refl s
  · refine (writeIncident_kept _ _).after ((post_kept _ _).after (.setWatch _ (WatchOk.mapRanges ?_)))
    rw [List.map_map]
    refine List.map_congr_left fun r _ => ?_
    simp only [Function.comp_apply]
    split <;> rfl

theorem setIndex_kept {i : Nat} {s : State} (below : 1 ≤ s.watch.count → i < s.watch.count) :
    KeptAll s (setIndex i s) :=
  .setWatch _ (WatchOk.setIndex i _ below)

theorem sequenceStep_kept (p : Port) (tx : Transaction) (s : State) : KeptAll s (sequenceStep p tx s) := by
  have restarted (f : Flag) (i : Incident) : KeptAll s (writeIncident i (post f (setIndex 0 s))) :=
    (writeIncident_kept _ _).after ((post_kept _ _).after (setIndex_kept id))
  unfold sequenceStep
  split
  · exact .refl s
  · split
    · split
      · next below => exact setIndex_kept fun _ => below
      · exact restarted _ _
    · split
      · exact .refl s
      · exact restarted _ _

theorem refuse_kept (p : Port) (t : Taken) (code : ResponseCode) (s : State) : KeptAll s (refuse p t code s) :=
  answer_kept _ _ _ s

theorem intakeRead_kept (p : Port) (t : Taken) (s : State) : KeptAll s (intakeRead p t s) := by
  unfold intakeRead
  dsimp only
  split_ifs
  · exact answer_kept _ _ _ s
  · exact refuse_kept _ _ _ s
  · exact refuse_kept _ _ _ s
  · exact (readGranted_kept _ _).after ((requestClaim_kept _ _ _ _).after
      ((setStand_kept _ _ _ _).after (.setPath _ id id)))
  · exact (requestClaim_kept _ _ _ _).after ((setStand_kept _ _ _ _).after (.setPath _ id id))

theorem waitForEntry_kept (p : Port) (t : Taken) (mask : Mask) (data : LineData) (s : State) :
    KeptAll s (waitForEntry p t mask data s) :=
  (setStand_kept _ _ _ _).after (.setBuffer _ id id)

theorem intakePosted_kept (p : Port) (t : Taken) (s : State) : KeptAll s (intakePosted p t s) := by
  unfold intakePosted
  dsimp only
  split
  · next placed h =>
    split at h
    · exact (settle_kept _).after ((refuse_kept _ _ _ _).after (placePosted_kept h))
    · cases h
  · exact .ite (fun _ => refuse_kept _ _ _ s) fun _ => waitForEntry_kept _ _ _ _ s

theorem intakeThrough_kept (p : Port) (t : Taken) (s : State) : KeptAll s (intakeThrough p t s) := by
  have held (w : ThroughWrite) : KeptAll s
      (setStand p t.serial .through { s with path := { s.path with throughs := s.path.throughs ++ [w] } }) :=
    (setStand_kept _ _ _ _).after (.setPath _ id id)
  have claimed (t : State) (line : Nat) (w : ThroughWrite) :
      KeptAll t (if lineClear t line then claimThrough w t else t) :=
    .ite (fun _ => claimThrough_kept w t) fun _ => .refl t
  exact .ite (fun _ => refuse_kept _ _ _ s) fun _ =>
    (claimed _ _ _).after ((KeptAll.ite (fun _ => enterRepairing_kept _)
    fun _ => .refl _).after (held _))

theorem checkWatches_kept (p : Port) (t : Taken) (cls : Nat) (s : State) : KeptAll s (checkWatches p t cls s) := by
  have tested := (sequenceStep_kept p t.tx _).after (watchStep_kept p t.tx s)
  unfold checkWatches
  dsimp only
  split
  · exact (refuse_kept _ _ _ _).after (watchStep_kept _ _ s)
  · split
    · exact (intakeRead_kept _ _ _).after tested
    · refine .ite (fun _ => (refuse_kept _ _ _ _).after tested) fun _ => .after ?_ tested
      exact .ite (fun _ => intakePosted_kept _ _ _) fun _ => intakeThrough_kept _ _ _

theorem runIntake_kept (p : Port) (s : State) : KeptAll s (runIntake p s) := by
  unfold runIntake
  split
  · exact .refl s
  · refine .ite (fun _ => ?_) fun _ => .refl s
    unfold checkTransaction
    dsimp only
    split_ifs
    · exact refuse_kept _ _ _ s
    · exact (refuse_kept _ _ _ _).after (post_kept _ s)
    · exact (refuse_kept _ _ _ _).after (post_kept _ s)
    · exact (refuse_kept _ _ _ _).after (post_kept _ s)
    · exact checkWatches_kept _ _ _ s

theorem retryWaiting_kept (w : WaitingWrite) (s : State) : KeptAll s (retryWaiting w s) := by
  unfold retryWaiting
  split
  · exact .refl s
  · next placed => exact (answer_kept _ _ _ _).after (.after (.setBuffer _ id id) (placePosted_kept placed))

theorem placeWaiting_kept (s : State) : KeptAll s (placeWaiting s) :=
  .foldl (fun t w => retryWaiting_kept w t) _ s

theorem requestThrough_kept (p : Port) (s : State) : KeptAll s (requestThrough p s) := by
  unfold requestThrough
  split
  · exact .refl s
  · exact .ite (fun _ => claimThrough_kept _ s) fun _ => .refl s

theorem setSent_kept (p : Port) (rs : List Response) (s : State) : KeptAll s (setSent p rs s) := by
  cases p <;> exact .setPath _ id id

theorem sendResponses_kept (p : Port) (s : State) : KeptAll s (sendResponses p s) := by
  unfold sendResponses
  split
  · exact .refl s
  · refine (setSent_kept _ _ _).after ?_
    cases p
    · refine .setPath _ (fun h => ?_) id
      rw [List.length_drop]
      exact (Nat.sub_le _ _).trans h
    · refine .setPath _ id fun h => ?_
      rw [List.length_drop]
      exact (Nat.sub_le _ _).trans h

/-! #### Pins, timers and the patrol -/

theorem srstRead_kept (r : SystemRead) (s : State) : KeptAll s (srstRead r s) :=
  .ite (fun _ => .setPath _ id id) fun _ => withdrawRead_kept r s

theorem srstThrough_kept (t : ThroughWrite) (s : State) : KeptAll s (srstThrough t s) :=
  .ite (fun _ => orphanThrough_kept t s) fun _ => (withdrawThrough_kept t _).after (withdrawRequests_kept _ s)

theorem srstReturn_kept (s : State) : KeptAll s (srstReturn s) := by
  have fence : KeptAll s { s with fence := { s.fence with current := s.fence.stored } } :=
    .setFenceLock _ rfl fun ok => ⟨fun limit => ⟨(ok.1 limit).2, (ok.1 limit).2⟩, ok.2⟩
  have tables (t : State) : KeptAll t
      { t with
        tables := { t.tables with regions := t.tables.storedRegions, classes := t.tables.storedClasses } } := by
    refine .setTables _ fun ok => ?_
    obtain ⟨⟨⟨_, regions⟩, _, classes⟩, formed, _, thresholds⟩ := ok
    exact ⟨⟨⟨regions, regions⟩, classes, classes⟩, fun limit => ⟨(formed limit).2, (formed limit).2⟩, thresholds,
      thresholds⟩
  exact .ite (fun _ => .refl s) fun _ => (tables _).after fence

theorem srstWatches_kept (s : State) : KeptAll s (srstWatches s) := by
  refine .setWatch _ fun ok => (ok.mapRanges (ranges := s.watch.ranges.map fun r => { r with enabled := false })
    ?_).setIndex 0
    false id
  rw [List.map_map]
  rfl

theorem systemReset_kept (s : State) : KeptAll s (systemReset s) := by
  have reads (s : State) (l : List SystemRead) : KeptAll s (l.foldl (fun t r => srstRead r t) s) :=
    .foldl (fun t r => srstRead_kept r t) l s
  have throughs (s : State) (l : List ThroughWrite) : KeptAll s (l.foldl (fun t w => srstThrough w t) s) :=
    .foldl (fun t w => srstThrough_kept w t) l s
  have queues (s : State) : KeptAll s
      { s with path := { s.path with queueA := [], queueB := [], drainWait := false } } :=
    .setPath _ (fun _ => Nat.zero_le _) fun _ => Nat.zero_le _
  have waiting (s : State) : KeptAll s { s with buffer := { s.buffer with waiting := [] } } := .setBuffer _ id id
  exact (settle_kept _).after ((srstWatches_kept _).after ((srstReturn_kept _).after
    ((waiting _).after ((queues _).after ((throughs _ _).after (reads _ _))))))

theorem warnThrough_kept (t : ThroughWrite) (s : State) : KeptAll s (warnThrough t s) :=
  .ite (fun _ => .refl s) fun _ => (withdrawThrough_kept t _).after (answerThrough_kept t _ s)

theorem powerWarning_kept (s : State) : KeptAll s (powerWarning s) := by
  have throughs (l : List ThroughWrite) : KeptAll s (l.foldl (fun t w => warnThrough w t) s) :=
    .foldl (fun t w => warnThrough_kept w t) l s
  exact (settle_kept _).after ((answerWaiting_kept _ _).after (throughs _))

theorem setPatrol_kept (f : Patrol → Patrol) (s : State) : KeptAll s (setPatrol f s) := .setHealth _ id jobs_fit

theorem endPass_kept (s : State) : KeptAll s (endPass s) := (post_kept _ _).after (setPatrol_kept _ s)

theorem patrolStep_kept (s : State) : KeptAll s (patrolStep s) := by
  unfold patrolStep
  dsimp only
  split
  · exact (endPass_kept _).after (setPatrol_kept _ s)
  · have placed (op : ArrayOp) (f : Patrol → Patrol) := (placeOp_kept op _).after ((setPatrol_kept f _).after
      (setPatrol_kept (fun p => { p with since := 0 }) s))
    exact .ite (fun _ => (endPass_kept _).after (placed _ _)) fun _ => placed _ _

theorem patrolExpiry_kept (s : State) : KeptAll s (patrolExpiry s) := by
  unfold patrolExpiry
  dsimp only
  split_ifs
  · exact .refl s
  · exact (patrolStep_kept _).after (setPatrol_kept _ s)
  · exact setPatrol_kept _ s

theorem tick_kept (s : State) : KeptAll s (tick s) := by
  refine .ite (fun _ => .refl s) fun _ => ?_
  refine .after (.setHealth _ (fun ok => ?_) fun ok => ?_) (.after (.setMetaCtl _ _)
    (.setLink (s := s) { s.link with waitTicks := if grantWait s then s.link.waitTicks + 1 else s.link.waitTicks } id))
  · exact ok
  · exact jobs_fit ok

/-! #### Loading and formatting -/

theorem placeLoad_kept (t : MetaLine) (s : State) : KeptAll s (placeLoad t s) := placeOp_kept _ s

theorem placeFormat_kept (n : Nat) (s : State) : KeptAll s (placeFormat n s) := placeOp_kept _ s

/-- The tables with the format defaults (R38, R41). -/
def formatTables : Tables :=
  { regions := List.replicate 16 regionDefault, classes := List.replicate 4 classDefault
    storedRegions := List.replicate 16 regionDefault, storedClasses := List.replicate 4 classDefault }

/-- The format defaults lie in every native user space (R38, R41). -/
theorem TablesOk.defaults (u : Nat) : TablesOk u formatTables := by
  have formed (limit : u ≠ 0) : ∀ r ∈ List.replicate 16 regionDefault, regionFormed u r = true := by
    intro r hr
    rw [List.eq_of_mem_replicate hr]
    simpa [regionFormed, regionDefault] using Nat.pos_of_ne_zero limit
  have thresholds : ∀ c ∈ List.replicate 4 classDefault, thresholdFormed c.threshold = true := by
    intro c hc
    rw [List.eq_of_mem_replicate hc]
    rfl
  exact ⟨by simp [formatTables], fun limit => ⟨formed limit, formed limit⟩, thresholds, thresholds⟩

/-- Every slot record made FREE (R159, R164). -/
theorem clearSlots_kept (loaded : Bool) (s : State) :
    KeptAll s { s with remap := { s.remap with table := [], dead := [], records := [], loaded := loaded } } := by
  refine .setRemap _ id (fun _ => ⟨rfl, ⟨rfl, nofun⟩, .nil⟩) fun _ pool => ?_
  rw [poolOk_iff] at pool ⊢
  refine ⟨⟨.nil, nofun, nofun⟩, pool.2.1, fun slot trial => ?_⟩
  have exist := ((freeSlot_iff s slot).mp (pool.2.2 slot trial)).1
  rw [freeSlot_iff]
  exact ⟨exist, nofun, nofun⟩

theorem startLoading_kept (s : State) : KeptAll s (startLoading s) := by
  have fence (s : State) : KeptAll s
      { s with
        fence :=
          { s.fence with
            current := s.fence.uNative
            stored := s.fence.uNative
            lockAtStart := false
            retain := false } } :=
    .setFenceLock _ rfl fun ok => ⟨fun limit => ⟨⟨Nat.pos_of_ne_zero limit, le_rfl⟩, Nat.pos_of_ne_zero limit, le_rfl⟩,
      ok.2⟩
  have tables (s : State) : KeptAll s { s with tables := formatTables } := .setTables _ fun _ => .defaults _
  have repair (s : State) : KeptAll s { s with metaCtl := { s.metaCtl with repair := [] } } := .setMetaCtl _ s
  exact (placeLoad_kept _ _).after ((fence _).after ((tables _).after ((repair _).after (clearSlots_kept false s))))

theorem loadedFence_bounds (s : State) (stored : Nat) (limit : s.fence.uNative ≠ 0) :
    1 ≤ loadedFence s stored ∧ loadedFence s stored ≤ s.fence.uNative := by
  unfold loadedFence
  split <;> omega

theorem takeHeader_kept (h : HeaderImage) (s : State) : KeptAll s (takeHeader h s) := by
  have bounds (limit : s.fence.uNative ≠ 0) :=
      And.intro (loadedFence_bounds s h.stored limit) (loadedFence_bounds s h.stored limit)
  exact .ite (fun _ => .setFenceLock _ rfl fun _ => ⟨bounds, Nat.zero_le 4⟩) fun _ => .setFenceLock _ rfl fun ok =>
    ⟨bounds, ok.2⟩

theorem headerDone_kept (ecc : Ecc) (h : HeaderImage) (s : State) : KeptAll s (headerDone ecc h s) := by
  unfold headerDone
  split
  · exact .ite (fun _ => (placeLoad_kept _ _).after ((takeHeader_kept _ _).after (freePort_kept s))) fun _ =>
      (setPhase_kept _ _).after (freePort_kept s)
  · exact .refl s

theorem addRepair_kept (t : MetaLine) (s : State) : KeptAll s (addRepair t s) :=
  .ite (fun _ => .refl s) fun _ => .setMetaCtl _ s

theorem KeptMost.foldl {α : Type} {f : State → α → State} (step : ∀ t a, KeptMost t (f t a)) (l : List α) (s : State) :
    KeptMost s (l.foldl f s) := by
  induction l generalizing s with
  | nil => exact .refl s
  | cons a l ih => exact (step s a).trans (ih (f s a))

theorem deadSlot_kept (slot : Nat) (s : State) : KeptMost s (deadSlot slot s) := killRecord_kept slot s

theorem damageSlot_kept (slot : Nat) (s : State) : KeptMost s (damageSlot slot s) :=
  (addRepair_kept _ _).toKeptMost.after (deadSlot_kept slot s)

theorem bindSlot_kept (slot line : Nat) (data : DataState) (origin : Origin) (generation : BitVec 8) (s : State) :
    KeptMost s (bindSlot slot line data origin generation s) :=
  KeptMost.after (setRecord_kept slot (.inUse line data origin generation) _).toKeptMost (.setRemap (s := s)
    { s.remap with table := sparseSet s.remap.table line { slot, data, origin, generation } }
      id (RemapOk.set_table _ _))

theorem takeInUse_kept (slot line : Nat) (data : DataState) (origin : Origin) (generation : BitVec 8) (s : State) :
    KeptMost s (takeInUse slot line data origin generation s) := by
  unfold takeInUse
  split
  · exact bindSlot_kept _ _ _ _ _ s
  · split
    · exact (damageSlot_kept _ _).after (bindSlot_kept _ _ _ _ _ s)
    · exact damageSlot_kept _ s

theorem takeRecord_kept (slot : Nat) (r : RawRecord) (s : State) : KeptMost s (takeRecord slot r s) := by
  unfold takeRecord
  split
  · exact damageSlot_kept _ s
  · exact .refl s
  · exact deadSlot_kept _ s
  · split
    · split
      · exact takeInUse_kept _ _ _ _ _ s
      · exact damageSlot_kept _ s
    · exact damageSlot_kept _ s

theorem takeRecords_kept (k : Nat) (records : List RawRecord) (s : State) : KeptMost s (takeRecords k records s) := by
  refine .foldl (fun t i => ?_) _ s
  unfold takeNth
  split
  · exact takeRecord_kept _ _ t
  · exact .refl t

theorem damagedImage_kept (k : Nat) (s : State) : KeptMost s (damagedImage k s) := by
  have dead : KeptMost s ((List.range 4).foldl (fun t i => deadSlot (4 * k + i) t) s) :=
    .foldl (fun t i => deadSlot_kept _ t) _ s
  exact (writeIncident_kept _ _).toKeptMost.after ((post_kept _ _).toKeptMost.after
    ((addRepair_kept _ _).toKeptMost.after dead))

theorem imageLoaded_kept (s : State) : KeptAll s (imageLoaded s) := by
  have loaded : KeptAll s { s with remap := { s.remap with loaded := true } } := .setRemap _ id id fun _ => id
  unfold imageLoaded
  dsimp only
  refine (placeLoad_kept _ _).after ?_
  split_ifs
  · exact (post_kept _ _).after ((post_kept _ _).after loaded)
  · exact (post_kept _ _).after loaded
  · exact (post_kept _ _).after loaded
  · exact loaded

theorem imageReadDone_kept (ecc : Ecc) (records : List RawRecord) (s : State) :
    KeptMost s (imageReadDone ecc records s) := by
  unfold imageReadDone
  split
  · next k _ =>
    have freed := (freePort_kept s).toKeptMost
    have read : KeptMost s
        (if ecc = .uncorrectable then damagedImage k (freePort s) else takeRecords k records (freePort s)) := by
      split
      · exact (damagedImage_kept _ _).after freed
      · exact (takeRecords_kept _ _ _).after freed
    dsimp only
    split
    · exact (placeLoad_kept _ _).toKeptMost.after read
    · exact (imageLoaded_kept _).toKeptMost.after read
  · exact .refl s

theorem length_layFour {α : Type} (start : Nat) (new table : List α) :
    (layFour start new table).length = table.length :=
  List.length_mapIdx

/-- What is laid over a table is new, or was there. -/
theorem mem_layFour {α : Type} {start : Nat} {new table : List α} {x : α} (h : x ∈ layFour start new table) :
    x ∈ new ∨ x ∈ table := by
  obtain ⟨i, hi, rfl⟩ := List.mem_mapIdx.1 h
  split
  · cases laid : new[i - start]? with
    | none => exact .inr (List.getElem_mem hi)
    | some y => exact .inl (List.mem_of_getElem? laid)
  · exact .inr (List.getElem_mem hi)

theorem loadedClass_formed (r : RawClass) : thresholdFormed (loadedClass r).threshold = true := by
  unfold loadedClass
  split
  · split
    · next formed => exact formed
    · rfl
  · rfl

theorem loadedRegion_formed (u : Nat) (limit : u ≠ 0) (r : RegionEntry) : regionFormed u (loadedRegion u r) = true := by
  unfold loadedRegion
  split
  · next formed => exact formed
  · simpa [regionFormed, regionDefault] using Nat.pos_of_ne_zero limit

theorem takeSettings_kept (j : Nat) (classes : List RawClass) (regions : List RegionEntry) (s : State) :
    KeptAll s (takeSettings j classes regions s) := by
  unfold takeSettings
  split
  · refine .setTables _ fun ok => ?_
    obtain ⟨⟨r, c, sc⟩, formed, thresholds, stored⟩ := ok
    have laid {start : Nat} {table : List ClassEntry} (ok : ∀ c ∈ table, thresholdFormed c.threshold = true) :
        ∀ c ∈ layFour start (classes.map loadedClass) table, thresholdFormed c.threshold = true := by
      intro c hc
      rcases mem_layFour hc with new | old
      · obtain ⟨raw, -, rfl⟩ := List.mem_map.1 new
        exact loadedClass_formed raw
      · exact ok c old
    exact ⟨⟨r, (length_layFour _ _ _).trans c, (length_layFour _ _ _).trans sc⟩, formed, laid thresholds, laid stored⟩
  · refine .setTables _ fun ok => ?_
    obtain ⟨⟨⟨r, sr⟩, c⟩, formed, thresholds⟩ := ok
    have laid (limit : s.fence.uNative ≠ 0) {start : Nat} {table : List RegionEntry}
        (ok : ∀ r ∈ table, regionFormed s.fence.uNative r = true) :
        ∀ r ∈ layFour start (regions.map (loadedRegion s.fence.uNative)) table,
          regionFormed s.fence.uNative r = true := by
      intro r hr
      rcases mem_layFour hr with new | old
      · obtain ⟨raw, -, rfl⟩ := List.mem_map.1 new
        exact loadedRegion_formed _ limit raw
      · exact ok r old
    exact ⟨⟨⟨(length_layFour _ _ _).trans r, (length_layFour _ _ _).trans sr⟩, c⟩,
      fun limit => ⟨laid limit (formed limit).1, laid limit (formed limit).2⟩, thresholds⟩

theorem settingsReadDone_kept (ecc : Ecc) (classes : List RawClass) (regions : List RegionEntry) (s : State) :
    KeptAll s (settingsReadDone ecc classes regions s) := by
  unfold settingsReadDone
  split
  · next j _ =>
    have read : KeptAll s (if ecc = .uncorrectable then addRepair (.settings (j + 1)) (freePort s)
        else takeSettings (j + 1) classes regions (freePort s)) :=
      .ite (fun _ => (addRepair_kept _ _).after (freePort_kept s)) fun _ =>
        (takeSettings_kept _ _ _ _).after (freePort_kept s)
    exact .ite (fun _ => (placeLoad_kept _ _).after read) fun _ =>
      (settle_kept _).after ((setPhase_kept _ _).after (.after (.setMetaCtl _ _) read))
  · exact .refl s

theorem formatDone_kept (ok : Bool) (s : State) : KeptAll s (formatDone ok s) := by
  unfold formatDone
  split
  · exact .refl s
  · dsimp only
    have freed := freePort_kept s
    split_ifs
    · exact (setPhase_kept _ _).after ((complete_kept _ _).after ((setFault_kept _).after freed))
    · exact (placeFormat_kept _ _).after freed
    · exact (startLoading_kept _).after ((setPhase_kept _ _).after ((complete_kept _ _).after freed))

/-! #### Completions of array operations -/

theorem correctedNeed_kept (line : Nat) (reason : Reason) (ecc : Ecc) (s : State) :
    KeptAll s (correctedNeed line reason ecc s) := by
  unfold correctedNeed
  split
  · exact .ite (fun _ => need_kept _ _ s) fun _ => .refl s
  · exact .refl s
  · exact .refl s

theorem readDone_kept (ecc : Ecc) (data : LineData) (s : State) : KeptAll s (readDone ecc data s) := by
  unfold readDone
  split
  · exact .refl s
  · have freed := freePort_kept s
    refine .ite (fun _ => (offer_kept _ _ _).after ((endRead_kept _ _).after ((refuseRead_kept _ _ _).after freed)))
      fun _ => ?_
    refine .after (.ite (fun _ => (need_kept _ _ _).after (removeCandidate_kept _ _)) fun _ =>
      correctedNeed_kept _ _ _ _) ?_
    exact (endRead_kept _ _).after ((answerRead_kept _ _ _).after freed)

/-- A course is of its writer: the drain's is the buffer's. -/
theorem drain_of_courseOf {w : Writer} {c : Course} {s : State} (h : courseOf s w = some c) (hw : w = .drain) :
    s.buffer.drain.map (·.line) = some c.line := by
  subst hw
  rw [show s.buffer.drain = some c from h]
  rfl

theorem mergeDone_kept (ecc : Ecc) (data : LineData) (s : State) : KeptAll s (mergeDone ecc data s) := by
  unfold mergeDone
  split
  · exact .refl s
  · split
    · exact .refl s
    · next course =>
      have freed := freePort_kept s
      have line := drain_of_courseOf course
      refine .ite (fun _ => (joinWork_kept _ _).after ((removeCandidate_kept _ _).after freed)) fun _ => ?_
      exact (placeCourseOp_kept _ _ _ _ _).after (freed.trans (setCourse_kept line))

theorem programDone_kept (ok : Bool) (s : State) : KeptAll s (programDone ok s) := by
  unfold programDone
  have freed := freePort_kept s
  split
  · split
    · exact .refl s
    · refine .after ?_ freed
      unfold programmed
      split_ifs
      · exact joinWork_kept _ _
      · exact placeCourseOp_kept _ _ _ _ _
      · exact recordOrEnd_kept _ _ _
  · exact .ite (fun _ => (storageDone_kept ok _).after freed) fun _ => .refl s

theorem verifyDone_kept (ecc : Ecc) (s : State) : KeptAll s (verifyDone ecc s) := by
  unfold verifyDone
  split
  · exact .refl s
  · split
    · exact .refl s
    · exact .ite (fun _ => (recordOrEnd_kept _ _ _).after ((removeCandidate_kept _ _).after (freePort_kept s))) fun _ =>
        (joinWork_kept _ _).after (freePort_kept s)

theorem spareProgramDone_kept (ok : Bool) (s : State) : KeptAll s (spareProgramDone ok s) := by
  unfold spareProgramDone
  split
  · next serving => exact (spareDone_kept ok (by simpa using serving)).after (freePort_kept s)
  · exact .refl s

theorem metaDone_kept (named : MetaLine → List MetaAsker → Bool) (ok : Bool) (s : State) :
    KeptAll s (metaDone named ok s) := by
  unfold metaDone
  split
  · exact .refl s
  · exact .ite (fun _ => (metaProgramDone_kept _ _ ok _).after (freePort_kept s)) fun _ => .refl s

/-- A change of one job that keeps its line. -/
theorem setJob_kept {line : Nat} {f : Job → Job} {s : State} (same : ∀ j, (f j).line = j.line) :
    KeptAll s (setJob line f s) := by
  refine .setHealth _ (fun ok => ?_) fun ok => ?_
  · obtain ⟨lengths, nodup, apart, jobs⟩ := ok
    refine ⟨lengths, nodup, apart, fun j hj c hc => ?_⟩
    obtain ⟨x, hx, rfl⟩ := List.mem_map.1 hj
    split
    · rw [same]
      exact jobs x hx c hc
    · exact jobs x hx c hc
  · rw [List.length_map]
    exact jobs_fit ok

theorem sourceDone_kept (ecc : Ecc) (data : LineData) (s : State) : KeptAll s (sourceDone ecc data s) := by
  unfold sourceDone
  split
  · exact .refl s
  · exact .ite (fun _ => (offer_kept _ _ _).after ((endJob_kept _ _).after (freePort_kept s))) fun _ =>
      (joinWork_kept _ _).after ((setJob_kept (f := fun j => { j with staged := some data }) fun _ => rfl).after
        (freePort_kept s))

theorem patrolDone_kept (ecc : Ecc) (s : State) : KeptAll s (patrolDone ecc s) := by
  unfold patrolDone
  split
  · exact .refl s
  · next slot _ =>
    have report (s : State) : KeptAll s (patrolReport slot ecc s) := by
      unfold patrolReport
      split_ifs
      · exact .refl _
      · exact offer_kept _ _ _
      · exact correctedNeed_kept _ _ _ _
    exact (report _).after ((setPatrol_kept _ _).after (freePort_kept s))

/-! #### The part's own steps -/

/-- Setting the drain's course touches no claim. -/
theorem setCourse_requestClaim (line : Nat) (k : ClaimKind) (o : Claimant) (w : Writer) (c : Course) (s : State) :
    setCourse w c (requestClaim line k o s) = requestClaim line k o (setCourse w c s) := by
  have once : grantedAtOnce (setCourse w c s) line k = grantedAtOnce s line k := by cases w <;> rfl
  have record : claimRecord (setCourse w c s) line = claimRecord s line := by cases w <;> rfl
  simp only [requestClaim, once, record]
  split <;> cases w <;> rfl

/-- With no drain in progress every entry is PENDING, and so no two are of one line (R54, R59). -/
theorem entries_of_no_drain {s : State} (ok : bufferOk s = true) (idle : s.buffer.drain = none) :
    (∀ e ∈ s.buffer.entries, e.state = .pending) ∧ (s.buffer.entries.map (·.line)).Nodup := by
  rw [bufferOk_iff, idle] at ok
  obtain ⟨order, lines⟩ := ok
  have pending : ∀ e ∈ s.buffer.entries, e.state = .pending := by
    intro e he
    have none := List.filter_eq_nil_iff.1 (List.map_eq_nil_iff.1 lines) e he
    cases h : e.state with
    | pending => rfl
    | draining => simp [h] at none
  refine ⟨pending, List.pairwise_map.2 (order.imp_of_mem fun {a b} ha _ h same => ?_)⟩
  have draining := (h same).1
  rw [pending a ha] at draining
  cases draining

/-- The selected entry becomes DRAINING as its course is set (R59). -/
theorem drainEntry_kept {e : SystemEntry} {c : Course} {s : State} (idle : s.buffer.drain = none)
    (mem : e ∈ s.buffer.entries) (line : c.line = e.line) : KeptAll s (setCourse .drain c (markDraining e.line s)) := by
  have keeps (x : SystemEntry) :
      (if x.line = e.line ∧ x.state = .pending then { x with state := .draining } else x).line = x.line := by split <;> rfl
  refine .setBuffer _ (fun ok => ?_) fun ok => ?_
  · obtain ⟨pending, nodup⟩ := entries_of_no_drain ok idle
    have lines := nodup
    rw [bufferOk_iff]
    constructor
    · refine List.pairwise_map.2 ((List.pairwise_map.1 nodup).imp fun {a b} apart same => ?_)
      rw [keeps, keeps] at same
      exact absurd same apart
    · have drained : (s.buffer.entries.map fun x =>
            if x.line = e.line ∧ x.state = .pending then { x with state := .draining } else x).filter
              (fun x => x.state == .draining)
          = (s.buffer.entries.filter fun x => x.line == e.line).map fun x =>
            if x.line = e.line ∧ x.state = .pending then { x with state := .draining } else x := by
        rw [List.filter_map]
        refine congrArg _ (List.filter_congr fun x hx => ?_)
        by_cases here : x.line = e.line <;> simp [here, pending x hx]
      have only : (s.buffer.entries.filter fun x => x.line == e.line).map (·.line) = [e.line] := by
        have count : (s.buffer.entries.map (·.line)).filter (· == e.line) = [e.line] := by
          rw [List.filter_beq, lines.count, if_pos (List.mem_map_of_mem mem)]
          rfl
        rw [← count, List.filter_map]
        rfl
      change (List.filter _ (List.map _ _)).map _ = [c.line]
      rw [drained, List.map_map, line, ← only]
      exact List.map_congr_left fun x _ => keeps x
  · rw [reserveOk_iff] at ok ⊢
    refine ⟨ok.1, ?_, ok.2.2⟩
    change (List.map _ _).length ≤ _
    rw [List.length_map]
    exact ok.2.1

theorem selectDrain_kept (s : State) : KeptAll s (selectDrain s) := by
  unfold selectDrain
  split
  · exact .refl s
  · next may =>
    split
    · exact .refl s
    · next e found =>
      have idle : s.buffer.drain = none := by
        cases drain : s.buffer.drain with
        | none => rfl
        | some c => simp [drain] at may
      refine startCourse_kept _ _ fun c line => ?_
      change KeptAll s (setCourse .drain c (requestClaim e.line .exclusive .drain (markDraining e.line s)))
      rw [setCourse_requestClaim]
      exact (requestClaim_kept _ _ _ _).after (drainEntry_kept idle (List.mem_of_find?_eq_some found) line)

theorem jobGranted_kept (line : Nat) (s : State) : KeptAll s (jobGranted line s) := by
  unfold jobGranted
  split
  · exact endJob_kept line s
  · exact (placeOp_kept _ _).after (setJob_kept fun _ => rfl)

theorem startJob_kept (s : State) : KeptAll s (startJob s) := by
  unfold startJob
  split
  · next q rest queue may =>
    have started : KeptAll s
        { s with
          health :=
            { s.health with
              queue := rest
              jobs :=
                s.health.jobs ++ [{ line := q.line, reason := q.reason, known := Mask.full, staged := none }] } } := by
      refine .setHealth _ (fun ok => ?_) fun ok => ?_
      · obtain ⟨⟨c, q'⟩, ⟨cn, qn⟩, apart, jobs⟩ := ok
        rw [queue] at q' qn apart
        refine ⟨⟨c, by simp at q' ⊢; omega⟩, ⟨cn, (List.nodup_cons.1 qn).2⟩,
          fun j hj => apart j (List.mem_cons_of_mem _ hj), fun j hj => ?_⟩
        rcases List.mem_append.1 hj with hj | hj
        · exact jobs j hj
        · rw [List.mem_singleton.1 hj]
          exact apart q List.mem_cons_self
      · simp only [jobsMayStart, Bool.and_eq_true] at may
        have room := ((stagingEntryFree_iff s).mp may.2).1
        rw [List.length_append]
        exact room.trans_le (stagingCapacity_le s)
    have requested := (requestClaim_kept q.line .exclusive (.job q.line) _).after started
    exact .ite (fun _ => (jobGranted_kept _ _).after requested) fun _ => requested
  · exact .refl s

theorem noDataGranted_kept (s : State) : KeptAll s (noDataGranted s) := by
  unfold noDataGranted
  split
  · exact .refl s
  · next queue =>
    refine (joinWork_kept _ _).after (.setNoData _ _ fun length => ?_)
    rw [queue] at length
    simp at length
    omega

theorem askNoData_kept (s : State) : KeptAll s (askNoData s) := by
  unfold askNoData
  split
  · exact .refl s
  · next q _ _ =>
    have asked : KeptAll s
        (requestClaim q.line .exclusive .noData { s with remap := { s.remap with noDataAsked := true } }) :=
      (requestClaim_kept _ _ _ _).after (.setNoData s.remap.noData true id)
    refine .ite (fun _ => .refl s) fun _ => ?_
    exact .ite (fun _ => (noDataGranted_kept _).after asked) fun _ => asked

theorem granteeStep_kept (o : Claimant) (s : State) : KeptAll s (granteeStep o s) := by
  unfold granteeStep
  split
  · split
    · exact readGranted_kept _ s
    · exact .refl s
  · exact .refl s
  · split
    · exact startCourse_through_kept _ _ _ _ s
    · exact .refl s
  · exact jobGranted_kept _ s
  · exact noDataGranted_kept s

theorem grantFront_kept {line : Nat} {o : Claimant} {s t : State} (h : grantFront line s = some (o, t)) :
    KeptAll s t := by
  unfold grantFront at h
  dsimp only at h
  split at h
  · cases h
  · split at h
    · cases h
      exact setClaims_kept _ _ s
    · cases h

theorem grantWaiting_kept (line fuel : Nat) (s : State) : KeptAll s (grantWaiting line fuel s) := by
  induction fuel generalizing s with
  | zero => exact .refl s
  | succ fuel ih =>
    unfold grantWaiting
    split
    · exact .refl s
    · next granted => exact (ih _).after ((granteeStep_kept _ _).after (grantFront_kept granted))

theorem serveReassign_kept (s : State) : KeptAll s (serveReassign s) := by
  unfold serveReassign
  split
  · exact judgeReassign_kept s
  · exact judgeReassign_kept s
  · exact .refl s

theorem serveMergeFail_kept (s : State) : KeptAll s (serveMergeFail s) := by
  unfold serveMergeFail
  split
  · exact serveStorage_kept s
  · exact .refl s

theorem serveRecording_kept (s : State) : KeptAll s (serveRecording s) := by
  unfold serveRecording
  split
  · next head =>
    refine beginRecording_kept fun none => ?_
    simp [unservedHead, none] at head
  · exact .refl s

/-- A reserve that fits the entries in use, or is the present one, takes effect (R76). -/
theorem takeReserve_kept {n : Nat} {s : State} (reserve : reserveOk s = true → isReserve n = true)
    (fits : n = s.buffer.reserve ∨ fitsReserve s n = true) : KeptAll s (takeReserve n s) := by
  refine (complete_kept _ _).after (.setBuffer _ id fun ok => ?_)
  have new := reserve ok
  rw [reserveOk_iff] at ok ⊢
  rcases fits with same | fits
  · subst same
    exact ok
  · simp only [fitsReserve, Bool.and_eq_true, decide_eq_true_eq] at fits
    obtain ⟨-, -, -, waiting⟩ := ok
    exact ⟨new, fits.1, fits.2, waiting⟩

theorem closeReserveWait_kept (s : State) : KeptAll s (closeReserveWait s) := by
  unfold closeReserveWait
  split
  · exact .refl s
  · next n wait =>
    refine .ite (fun fits => takeReserve_kept (fun ok => ?_) (.inr fits)) fun _ => .refl s
    obtain ⟨-, -, -, waiting⟩ := (reserveOk_iff s).mp ok
    refine waiting n ?_
    unfold reserveWait at wait
    split at wait
    · next busy =>
      cases wait
      exact busy
    · cases wait

theorem closeDrainAll_kept (s : State) : KeptAll s (closeDrainAll s) := by
  unfold closeDrainAll
  split
  · exact .ite (fun _ => completeWith_kept _ _ s (by simp)) fun _ => .refl s
  · exact .refl s

end Sys2Proof.Machine
end

section
namespace Sys2Proof.Machine

/-! #### The command codes -/

theorem underLock_kept {carry : State → State} (kept : ∀ s, KeptAll s (carry s)) (s : State) :
    KeptAll s (underLock carry s) := by
  unfold underLock
  split
  · exact complete_kept _ s
  · split
    · exact complete_kept _ s
    · exact kept s

theorem outsideGeometryFault_kept {carry : State → State} (kept : ∀ s, KeptAll s (carry s)) (s : State) :
    KeptAll s (outsideGeometryFault carry s) := .ite (fun _ => complete_kept _ s) fun _ => kept s

theorem inService_kept {carry : State → State} (kept : ∀ s, KeptAll s (carry s)) (s : State) :
    KeptAll s (inService carry s) := .ite (fun _ => complete_kept _ s) fun _ => kept s

theorem setBusy_kept {b : InProgress} (s : State) (reserve : ∀ n, b = .reserve n → isReserve n = true) :
    KeptAll s (setBusy b s) :=
  .setMgmt _ rfl id fun _ n busy => reserve n (Option.some.inj busy)

theorem storeHeader_kept (s : State) : KeptAll s (storeHeader s) :=
  (settle_kept _).after ((requestMeta_kept _ _ _).after (setBusy_kept s nofun))

theorem setFence_kept (s : State) : KeptAll s (setFence s) := by
  unfold setFence
  dsimp only
  split
  · exact complete_kept _ s
  · next range =>
    have bounds : 1 ≤ paramNat s 0 ∧ paramNat s 0 ≤ s.fence.uNative := by omega
    split
    · exact (complete_kept _ _).after (.setFenceLock _ rfl fun ok => ⟨fun limit => ⟨bounds, (ok.1 limit).2⟩, ok.2⟩)
    · exact .ite (fun _ => complete_kept _ s) fun _ => (storeHeader_kept _).after
        (.setFenceLock _ rfl fun ok => ⟨fun _ => ⟨bounds, bounds⟩, ok.2⟩)

theorem storeLockAtStart_kept (value : Bool) (s : State) : KeptAll s (storeLockAtStart value s) := by
  refine .ite (fun _ => complete_kept _ s) fun _ => .ite (fun _ => complete_kept _ s) fun _ => ?_
  exact (storeHeader_kept _).after (.setFenceLock _ rfl id)

/-- A lock state that allows the refusal count. -/
theorem setLock_kept {l : LockState} {s : State} (refusals : FenceOk s.fence → RefusalsOk l s.fence.refusals) :
    KeptAll s (setLock l s) := .setFenceLock _ rfl fun ok => ⟨ok.1, refusals ok⟩

/-- No lock state allows more than five refusals (R32). -/
theorem RefusalsOk.le {l : LockState} {n : Nat} (ok : RefusalsOk l n) : n ≤ 5 := by
  cases l <;> simp only [RefusalsOk] at ok <;> omega

theorem fenceLock_kept (s : State) : KeptAll s (fenceLock s) := by
  unfold fenceLock
  split
  · exact complete_kept _ s
  · split
    · exact complete_kept _ s
    · next unlocked =>
      refine (storeLockAtStart_kept _ _).after (setLock_kept fun ok => ?_)
      have none := ok.2
      rw [unlocked] at none
      exact none ▸ Nat.zero_le 4
    · exact storeLockAtStart_kept _ s
    · exact storeLockAtStart_kept _ s

theorem countRefusal_kept {s : State} (locked : s.fence.lock = .locked) : KeptAll s (countRefusal s) := by
  unfold countRefusal
  refine (complete_kept _ _).after (.ite (fun full => (post_kept _ _).after ?_) fun room => ?_)
  · refine .setFenceLock (s := s) { s.fence with refusals := s.fence.refusals + 1, lock := .expired } rfl fun ok =>
      ⟨ok.1, ?_⟩
    have bound := ok.2
    rw [locked] at bound
    exact Nat.le_antisymm (Nat.succ_le_succ bound) full
  · refine .setFenceLock _ rfl fun ok => ⟨ok.1, ?_⟩
    rw [locked]
    exact Nat.le_of_lt_succ (Nat.lt_of_not_le room)

theorem fenceUnlock_kept (s : State) : KeptAll s (fenceUnlock s) := by
  unfold fenceUnlock
  split
  · exact complete_kept _ s
  · split
    · exact complete_kept _ s
    · exact complete_kept _ s
    · next locked =>
      refine .ite (fun _ => ?_) fun _ => countRefusal_kept locked
      exact (storeLockAtStart_kept _ _).after (.setFenceLock _ rfl fun ok => ⟨ok.1, rfl⟩)
    · exact storeLockAtStart_kept _ s

theorem fenceFreeze_kept (s : State) : KeptAll s (fenceFreeze s) := by
  unfold fenceFreeze
  split
  · exact complete_kept _ s
  · exact complete_kept _ s
  · exact (complete_kept _ _).after (setLock_kept fun ok => ok.2.le)

theorem loadRegion_kept (s : State) : KeptAll s (loadRegion s) := by
  unfold loadRegion
  split
  · exact complete_kept _ s
  · next fits =>
    have formed : regionFormed s.fence.uNative (regionParam s) = true := by
      simpa using (not_or.1 fits).2
    refine (complete_kept _ _).after (.setTables _ fun ⟨⟨⟨regions, stored⟩, classes⟩, shape, rest⟩ => ?_)
    refine ⟨⟨⟨(List.length_set ..).trans regions, stored⟩, classes⟩, fun limit => ⟨fun r hr => ?_, (shape limit).2⟩,
      rest⟩
    rcases List.mem_or_eq_of_mem_set hr with old | new
    · exact (shape limit).1 r old
    · exact new ▸ formed

/-- The relocation threshold that a parameter carries is in its range (R41). -/
theorem thresholdFormed_of_thresholdOf {n : Nat} {t : Threshold} (h : thresholdOf n = some t) :
    thresholdFormed t = true := by
  unfold thresholdOf at h
  split_ifs at h with off range
  · cases h
    rfl
  · cases h
    simpa [thresholdFormed] using range

theorem classParam_formed {s : State} {c : ClassEntry} (h : classParam s = some c) :
    thresholdFormed c.threshold = true := by
  unfold classParam at h
  split at h
  · next threshold =>
    cases h
    exact thresholdFormed_of_thresholdOf threshold
  · cases h

theorem loadClass_kept (s : State) : KeptAll s (loadClass s) := by
  unfold loadClass
  split
  · exact complete_kept _ s
  · next c param =>
    refine .ite (fun _ => complete_kept _ s) fun _ => (complete_kept _ _).after (.setTables _ ?_)
    rintro ⟨⟨regions, classes, stored⟩, shape, working, saved⟩
    refine ⟨⟨regions, (List.length_set ..).trans classes, stored⟩, shape, fun x hx => ?_, saved⟩
    rcases List.mem_or_eq_of_mem_set hx with old | new
    · exact working x old
    · exact new ▸ classParam_formed param

theorem saveSettings_kept (s : State) : KeptAll s (saveSettings s) := by
  have tables : KeptAll s
      { s with tables := { s.tables with storedRegions := s.tables.regions, storedClasses := s.tables.classes } } := by
    refine .setTables _ ?_
    rintro ⟨⟨⟨regions, _⟩, classes, _⟩, formed, thresholds, _⟩
    exact ⟨⟨⟨regions, regions⟩, classes, classes⟩, fun limit => ⟨(formed limit).1, (formed limit).1⟩, thresholds,
      thresholds⟩
  have retained (t : State) : KeptAll t { t with fence := { t.fence with retain := flagParam s } } :=
      .setFenceLock _ rfl id
  refine .ite (fun _ => complete_kept _ s) fun _ => ?_
  exact (settle_kept _).after ((requestMeta_kept _ _ _).after
    ((setBusy_kept _ (by simp)).after ((retained _).after tables)))

theorem rangeParam_fits {s : State} {r : RangeWatch} (h : rangeParam s = some r) :
    r.first ≤ r.last ∧ r.last < 64 * s.fence.uNative := by
  unfold rangeParam at h
  dsimp only at h
  split at h
  · split at h
    · next fits =>
      cases h
      exact ⟨fits.1, fits.2.1⟩
    · cases h
  · cases h

theorem loadRange_kept (s : State) : KeptAll s (loadRange s) := by
  unfold loadRange
  split
  · exact complete_kept _ s
  · next param =>
    have fits := rangeParam_fits param
    refine .ite (fun _ => complete_kept _ s) fun _ => (complete_kept _ _).after (.setWatch _ ?_)
    rintro ⟨⟨ranges, targets⟩, sequence, order, limits⟩
    refine ⟨⟨(List.length_set ..).trans ranges, targets⟩, sequence, fun x hx => ?_, fun limit =>
      ⟨fun x hx => ?_, (limits limit).2⟩⟩
      <;> rcases List.mem_or_eq_of_mem_set hx with old | new
    · exact order x old
    · exact new ▸ fits.1
    · exact (limits limit).1 x old
    · exact new ▸ fits.2

theorem targetParam_fits {s : State} {t : Target} (h : targetParam s = some t) : t.addr < 64 * s.fence.uNative := by
  unfold targetParam at h
  split at h
  · cases h
  · split at h
    · next fits =>
      cases h
      exact fits.1
    · cases h

theorem loadTarget_kept (s : State) : KeptAll s (loadTarget s) := by
  unfold loadTarget
  split
  · exact complete_kept _ s
  · next param =>
    refine .ite (fun _ => complete_kept _ s) fun _ => (complete_kept _ _).after (.setWatch _ ?_)
    rintro ⟨⟨ranges, targets⟩, sequence, order, limits⟩
    refine ⟨⟨ranges, (List.length_set ..).trans targets⟩, sequence, order, fun limit =>
      ⟨(limits limit).1, fun x hx => ?_⟩⟩
    rcases List.mem_or_eq_of_mem_set hx with old | new
    · exact (limits limit).2 x old
    · exact new ▸ targetParam_fits param

theorem sequenceSet_kept (s : State) : KeptAll s (sequenceSet s) := by
  refine .ite (fun _ => complete_kept _ s) fun range => (complete_kept _ _).after (.setWatch _ fun ok => ?_)
  have count : 1 ≤ paramNat s 0 ∧ paramNat s 0 ≤ 16 := by omega
  exact ⟨ok.1, ⟨count, count.1⟩, ok.2.2⟩

theorem sequenceArm_kept (s : State) : KeptAll s (sequenceArm s) :=
  (complete_kept _ _).after (.setWatch _ (WatchOk.setIndex 0 true id))

theorem sequenceDisarm_kept (s : State) : KeptAll s (sequenceDisarm s) :=
  (complete_kept _ _).after (.setWatch _ fun ok => ok.setIndex s.watch.index false fun _ => ok.2.1.2)

/-- The drain-all target set changes no line and no state of an entry. -/
theorem setTargets_kept (target : Bool) (s : State) : KeptAll s
    { s with buffer := { s.buffer with entries := s.buffer.entries.map fun e => { e with target := target } } } :=
  .setBuffer_same _ (map_entries_same (f := fun e => { e with target := target }) (fun _ => rfl) (fun _ => rfl) _)
    rfl rfl

theorem drainAll_kept (s : State) : KeptAll s (drainAll s) :=
  .ite (fun _ => completeWith_kept _ _ s (by simp)) fun _ => (setBusy_kept _ (by simp)).after (setTargets_kept true s)

theorem setReserve_kept (s : State) : KeptAll s (setReserve s) := by
  unfold setReserve
  dsimp only
  split
  · exact complete_kept _ s
  · next reserve =>
    have reserve : isReserve (paramNat s 0) = true := by simpa using reserve
    refine .ite (fun fits => takeReserve_kept (fun _ => reserve) fits) fun _ => setBusy_kept s fun n same => ?_
    cases same
    exact reserve

theorem retireCandidate_kept (line : Nat) (s : State) : KeptAll s (retireCandidate line s) :=
  .ite (fun _ => complete_kept _ s) fun _ => (complete_kept _ _).after ((requestNoData_kept _ _ _).after
    (removeCandidate_kept line s))

theorem retireQueued_kept (line : Nat) (s : State) : KeptAll s (retireQueued line s) := by
  have lines : (s.health.queue.map fun j => if j.line = line then { j with reason := .retireCommand } else j).map
      (·.line)
      = s.health.queue.map (·.line) := by
    rw [List.map_map]
    refine List.map_congr_left fun j _ => ?_
    simp only [Function.comp_apply]
    split <;> rfl
  refine .setHealth _ (fun ok => ?_) jobs_fit
  obtain ⟨⟨c, q⟩, ⟨cn, qn⟩, apart, jobs⟩ := ok
  refine ⟨⟨c, (List.length_map _).le.trans q⟩, ⟨cn, lines ▸ qn⟩, fun j hj c hc => ?_, jobs⟩
  obtain ⟨x, hx, rfl⟩ := List.mem_map.1 hj
  split <;> exact apart x hx c hc

theorem retireLine_kept (line : Nat) (s : State) : KeptAll s (retireLine line s) := by
  unfold retireLine
  split_ifs with candidate _ _ _ queued full
  · exact retireCandidate_kept line s
  · exact complete_kept _ s
  · exact complete_kept _ s
  · exact complete_kept _ s
  · exact (complete_kept _ _).after (retireQueued_kept line s)
  · exact complete_kept _ s
  · exact (complete_kept _ _).after (.setHealth _ (fun ok => ok.addQueued _ (Nat.lt_of_not_le full)
      (not_jobQueued queued) (not_isCandidate candidate)) jobs_fit)

theorem retireJudged_kept (s : State) : KeptAll s (retireJudged s) :=
  .ite (fun _ => complete_kept _ s) fun _ => .ite (fun _ => complete_kept _ s) fun _ => retireLine_kept _ s

theorem readRemap_kept (s : State) : KeptAll s (readRemap s) := by
  refine .ite (fun _ => complete_kept _ s) fun _ => ?_
  split
  · exact completeWith_kept _ _ s (by simp [entryData])
  · exact complete_kept _ s

theorem readSlot_kept (s : State) : KeptAll s (readSlot s) := by
  refine .ite (fun _ => complete_kept _ s) fun _ => completeWith_kept _ _ s ?_
  unfold slotData
  split <;> simp [entryData]

theorem readCandidate_kept (s : State) : KeptAll s (readCandidate s) := by
  unfold readCandidate
  dsimp only
  split <;> exact completeWith_kept _ _ s (by simp)

theorem patrolStart_kept (s : State) : KeptAll s (patrolStart s) := by
  unfold patrolStart
  split
  · exact complete_kept _ s
  · exact .ite (fun _ => complete_kept _ s) fun _ => (complete_kept _ _).after (setPatrol_kept _ s)

theorem patrolStop_kept (s : State) : KeptAll s (patrolStop s) := (complete_kept _ _).after (setPatrol_kept _ s)

theorem patrolStatus_kept (s : State) : KeptAll s (patrolStatus s) := completeWith_kept _ _ s (by simp [patrolData])

theorem setGrantLimit_kept (s : State) : KeptAll s (setGrantLimit s) := by
  refine .ite (fun _ => complete_kept _ s) fun _ => ?_
  have set : KeptAll s (complete .done { s with link := { s.link with limit := paramNat s 0 } }) :=
    (complete_kept _ _).after (.setLink _ id)
  exact .ite (fun _ => (settle_kept _).after ((expire_kept _).after set)) fun _ => set

theorem startFormat_kept (s : State) : KeptAll s (startFormat s) :=
  (placeFormat_kept _ _).after ((setPhase_kept _ _).after ((setBusy_kept _ (by simp)).after (clearSlots_kept _ s)))

theorem formatArray_kept (s : State) : KeptAll s (formatArray s) := by
  unfold formatArray
  split
  · exact complete_kept _ s
  · split
    · exact complete_kept _ s
    · exact .ite (fun _ => complete_kept _ s) fun _ => startFormat_kept s

theorem cancelBusy_kept (b : InProgress) (s : State) : KeptAll s (cancelBusy b s) := by
  cases b with
  | drainAll taken discarded => exact (completeWith_kept _ _ _ (by simp)).after (setTargets_kept false s)
  | reserve n => exact complete_kept _ s
  | header => exact .refl s
  | save rest => exact .refl s
  | format => exact .refl s

/-! #### The register window -/

theorem writeFlags_kept (g : Group) (v : Word) (s : State) : KeptAll s (writeFlags g v s) := by
  refine .setEvents _ (by simp) fun ok => eventsOk_setGroup ok ?_
  have group := groupOk_of_eventsOk ok g
  simp only [groupOk, EventGroup.writeFlags, Bool.and_eq_true, beq_iff_eq] at group ⊢
  refine ⟨?_, group.2⟩
  rw [BitVec.and_assoc, BitVec.and_comm (~~~v), ← BitVec.and_assoc, group.1]
  simp

theorem writeEnables_kept (g : Group) (v : Word) (s : State) : KeptAll s (writeEnables g v s) := by
  refine .setEvents _ (by simp) fun ok => eventsOk_setGroup ok ?_
  simp only [groupOk, EventGroup.writeEnables, Bool.and_eq_true, beq_iff_eq]
  constructor
  · rw [BitVec.and_assoc, BitVec.and_not_self]
    simp
  · rw [BitVec.and_assoc, BitVec.and_not_self]
    simp

theorem writeGroupEnable_kept (v : Word) (s : State) : KeptAll s (writeGroupEnable v s) := by
  refine .setEvents _ rfl fun ok => ?_
  rw [eventsOk_iff] at ok ⊢
  refine ⟨ok.1, ?_, ok.2.2⟩
  change v &&& groupEnableBits &&& ~~~groupEnableBits = 0#32
  rw [BitVec.and_assoc, BitVec.and_not_self]
  simp

theorem clearHits_kept (v : Word) (s : State) : KeptAll s (clearHits v s) := by
  refine .setWatch _ (WatchOk.mapRanges ?_)
  refine List.ext_getElem (by simp) fun i _ _ => ?_
  simp only [List.getElem_map, List.getElem_mapIdx]
  split <;> rfl

theorem popIncident_kept (s : State) : Kept s (popIncident s) := by
  refine ⟨fun ok => ?_, id, id, id, id, id⟩
  rw [eventsOk_iff] at ok ⊢
  unfold popIncident Events.pop
  cases records : s.events.incidents with
  | nil => exact ⟨ok.1, ok.2.1, by simp⟩
  | cons i rest =>
    rw [records] at ok
    exact ⟨ok.1, ok.2.1, (Nat.le_succ _).trans ok.2.2⟩

theorem writeRegister_kept (index : BitVec 7) (v : Word) (s : State) : Kept s (writeRegister index v s) := by
  unfold writeRegister
  split
  · exact .setMgmt _ (List.length_set ..) id id
  · exact .refl s

/-! #### Every command and every step -/

/-- An outcome that is a next state stands to `s` as `r` says. -/
def Leads (r : State → State → Prop) (o : Host.Outcome State Fault Refusal) (s : State) : Prop :=
  ∀ t, o = .next t → r s t

theorem Leads.next {r : State → State → Prop} {s t : State} (h : r s t) : Leads r (.next t) s := by
  rintro _ ⟨⟩
  exact h

theorem Leads.ite {r : State → State → Prop} {c : Prop} [Decidable c] {a b : Host.Outcome State Fault Refusal}
    {s : State}
    (ha : Leads r a s) (hb : Leads r b s) : Leads r (if c then a else b) s := by
  split
  · exact ha
  · exact hb

/-- Under PORST the part does nothing (R8). -/
theorem Leads.onPart {f : State → State} (kept : ∀ s, KeptAll s (f s)) (s : State) : Leads KeptAll (onPart f s) s :=
  .next (.ite (fun _ => .refl s) fun _ => kept s)

/-- The edge of a pin changes its level, and then the part. -/
theorem Leads.edge {f : State → State} (kept : ∀ s, KeptAll s (f s)) (p : Pins) (s : State) :
    Leads KeptAll (Sys2Proof.Machine.onPart f { s with pins := p }) s :=
  .next (.after (.ite (fun _ => .refl _) fun _ => kept _) (.setPins p s))

theorem Leads.takeCommand {carry : State → State} (kept : ∀ s, KeptAll s (carry s)) (code : BitVec 8) (s : State) :
    Leads KeptAll (.next (takeCommand code carry s)) s := .next (takeCommand_kept kept code s)

theorem Leads.mono {r q : State → State → Prop} {o : Host.Outcome State Fault Refusal} {s : State}
    (h : Leads r o s) (weaker : ∀ t, r s t → q s t) : Leads q o s := fun t next => weaker t (h t next)

theorem openDrainWait_kept (s : State) : KeptAll s (openDrainWait s) := .setPath _ id id

theorem closeDrainWait_kept (s : State) : KeptAll s (closeDrainWait s) :=
  .ite (fun _ => .setPath _ id id) fun _ => .refl s

theorem execCancel_leads (s : State) : Leads KeptAll (execCancel s) s := by
  unfold execCancel
  split
  · exact .onPart (cancelBusy_kept _) s
  · exact .takeCommand (outsideGeometryFault_kept (complete_kept _)) _ s

/-- The commands that keep less than `KeptAll`: PORST changes every block, a pop and a register write change what
`KeptMost` names, and a loading read of an image line builds the pool. -/
def keepsAll : Instr → Bool
  | .porstAssert | .porstRelease _ | .incidentPop _ | .registerWrite _ _ | .imageReadComplete _ _ => false
  | _ => true

theorem exec_keptAll {c : Instr} (keeps : keepsAll c = true) (s : State) : Leads KeptAll (exec c s) s := by
  cases c
  case porstAssert => cases keeps
  case porstRelease => cases keeps
  case incidentPop => cases keeps
  case registerWrite => cases keeps
  case imageReadComplete => cases keeps
  -- the pins
  case srstAssert => exact .ite (.next (.refl s)) (.edge systemReset_kept _ s)
  case srstRelease => exact .ite (.edge openDrainWait_kept _ s) (.next (.refl s))
  case pwarnAssert => exact .ite (.next (.refl s)) (.edge powerWarning_kept _ s)
  case pwarnRelease => exact .next (.setPins _ s)
  case agntAssert => exact .ite (.next (.refl s)) (.edge grantReturns_kept _ s)
  case agntWithdraw => exact .ite (.edge grantFalls_kept _ s) (.next (.refl s))
  case resetDrainWaitClose => exact .onPart closeDrainWait_kept s
  -- the ports
  case transactionTake p tx => exact .onPart (takeTransaction_kept p tx) s
  case intake p => exact .onPart (runIntake_kept p) s
  case responseSend p => exact .onPart (sendResponses_kept p) s
  case waitingWritePlace =>
    exact .onPart (f := fun s => settle (placeWaiting s))
      (fun s => (settle_kept _).after (placeWaiting_kept s)) s
  case throughWriteClaimRequest p => exact .onPart (requestThrough_kept p) s
  -- the timers
  case grantWaitExpiry =>
    exact .onPart (f := fun s => if grantExpired s then settle (expire s) else s)
      (fun s => .ite (fun _ => (settle_kept _).after (expire_kept s)) fun _ => .refl s) s
  case settleTimerExpiry =>
    exact .onPart (f := fun s => if s.metaCtl.phase = .readReady ∧ settleExpired s then enterRepairing s else s)
      (fun s => .ite (fun _ => enterRepairing_kept s) fun _ => .refl s) s
  case patrolTimerExpiry => exact .onPart patrolExpiry_kept s
  -- the array link
  case arrayIssue => exact .onPart issueNext_kept s
  case systemReadComplete ecc data =>
    exact .onPart (f := fun s => settle (readDone ecc data s))
      (fun s => (settle_kept _).after (readDone_kept ecc data s)) s
  case mergeReadComplete ecc data => exact .onPart (mergeDone_kept ecc data) s
  case drainProgramComplete ok => exact .onPart (programDone_kept ok) s
  case verifyReadComplete ecc => exact .onPart (verifyDone_kept ecc) s
  case spareProgramComplete ok => exact .onPart (spareProgramDone_kept ok) s
  case imageProgramComplete ok => exact .onPart (metaDone_kept _ ok) s
  case settingsProgramComplete ok => exact .onPart (metaDone_kept _ ok) s
  case repairProgramComplete ok => exact .onPart (metaDone_kept _ ok) s
  case headerReadComplete ecc h => exact .onPart (headerDone_kept ecc h) s
  case settingsReadComplete ecc classes regions => exact .onPart (settingsReadDone_kept ecc classes regions) s
  case formatProgramComplete ok => exact .onPart (formatDone_kept ok) s
  case relocationSourceReadComplete ecc data => exact .onPart (sourceDone_kept ecc data) s
  case patrolReadComplete ecc => exact .onPart (patrolDone_kept ecc) s
  -- the part's own steps
  case drainSelect => exact .onPart selectDrain_kept s
  case claimGrant line =>
    exact .onPart (f := fun s => settle (settleClaims line s))
      (fun s => (settle_kept _).after (grantWaiting_kept line _ s)) s
  case relocationJobStart => exact .onPart startJob_kept s
  case reassignServe =>
    exact .onPart (f := fun s => settle (serveReassign s))
      (fun s => (settle_kept _).after (serveReassign_kept s)) s
  case mergeFailStorageServe => exact .onPart serveMergeFail_kept s
  case dataStateRecordingServe => exact .onPart serveRecording_kept s
  case noDataClaimRequest => exact .onPart askNoData_kept s
  case reserveWaitClose => exact .onPart closeReserveWait_kept s
  case drainAllComplete => exact .onPart closeDrainAll_kept s
  -- the command codes, by who judges them first: the map lock, the phase, or the command itself
  case setFence => exact .takeCommand (underLock_kept setFence_kept) _ s
  case loadRegion => exact .takeCommand (underLock_kept loadRegion_kept) _ s
  case loadClass => exact .takeCommand (underLock_kept loadClass_kept) _ s
  case saveSettings => exact .takeCommand (underLock_kept saveSettings_kept) _ s
  case readRemap => exact .takeCommand (inService_kept readRemap_kept) _ s
  case readSlot => exact .takeCommand (inService_kept readSlot_kept) _ s
  case patrolStart => exact .takeCommand (inService_kept patrolStart_kept) _ s
  case readLimits =>
    exact .takeCommand (outsideGeometryFault_kept fun s => completeWith_kept _ _ s (by simp [limitsData])) _ s
  case loadRange => exact .takeCommand (outsideGeometryFault_kept loadRange_kept) _ s
  case loadTarget => exact .takeCommand (outsideGeometryFault_kept loadTarget_kept) _ s
  case sequenceSet => exact .takeCommand (outsideGeometryFault_kept sequenceSet_kept) _ s
  case sequenceArm => exact .takeCommand (outsideGeometryFault_kept sequenceArm_kept) _ s
  case sequenceDisarm => exact .takeCommand (outsideGeometryFault_kept sequenceDisarm_kept) _ s
  case drainAll => exact .takeCommand (outsideGeometryFault_kept drainAll_kept) _ s
  case setReserve => exact .takeCommand (outsideGeometryFault_kept setReserve_kept) _ s
  case readCandidate => exact .takeCommand (outsideGeometryFault_kept readCandidate_kept) _ s
  case patrolStop => exact .takeCommand (outsideGeometryFault_kept patrolStop_kept) _ s
  case patrolStatus => exact .takeCommand (outsideGeometryFault_kept patrolStatus_kept) _ s
  case setGrantLimit => exact .takeCommand (outsideGeometryFault_kept setGrantLimit_kept) _ s
  case fenceLock => exact .takeCommand fenceLock_kept _ s
  case fenceUnlock maintEn =>
    exact .takeCommand (fun s => (fenceUnlock_kept { s with pins := { s.pins with maintEn := maintEn } }).after
      (.setPins _ s)) _ s
  case fenceFreeze => exact .takeCommand fenceFreeze_kept _ s
  case retireLine => exact .takeCommand retireJudged_kept _ s
  case formatArray => exact .takeCommand formatArray_kept _ s
  case cancel => exact execCancel_leads s
  case unknownCommand code => exact .next (.ite (fun _ => .refl s) fun _ => takeCommand_kept (complete_kept _) code s)
  -- the register window
  case flagsWrite g v => exact .onPart (writeFlags_kept g v) s
  case enablesWrite g v => exact .onPart (writeEnables_kept g v) s
  case groupEnableWrite v => exact .onPart (writeGroupEnable_kept v) s
  case watchHitsWrite v => exact .onPart (clearHits_kept v) s
  case commandWriteWhileBusy code =>
    exact .onPart (f := fun s => if s.mgmt.busy.isSome ∧ code ≠ 0x19#8 then post .commandOverrun s else s)
      (fun s => .ite (fun _ => post_kept _ s) fun _ => .refl s) s

theorem imageReadComplete_keptMost (ecc : Ecc) (records : List RawRecord) (s : State) :
    Leads KeptMost (exec (.imageReadComplete ecc records) s) s := by
  refine .next ?_
  split
  · exact .refl s
  · exact imageReadDone_kept ecc records s

/-- The power-on values meet every invariant, whatever the native user limit (R36, R51, R80, R99, R122, R143, R154,
R168, R185). -/
theorem powerOn_ok (p : Pins) (u : Nat) (phase : Phase) (work : List ArrayOp) (queue : List Instr) :
    let s := State.powerOn p u phase work queue
    eventsOk s = true ∧ SettingsOk s ∧ queuesOk s = true ∧ sparseOk s = true ∧ bufferOk s = true ∧ reserveOk s = true
      ∧ poolOk s = true ∧ untouchedFrom 0 s = true := by
  have clear (g : Group) : groupOk g .clear = true := by cases g <;> decide
  have events : eventsOk (State.powerOn p u phase work queue) = true :=
    (eventsOk_iff _).mpr ⟨fun g => by cases g <;> exact clear _, by simp [State.powerOn], Nat.zero_le 16⟩
  refine ⟨events, (settingsOk_iff _).mpr ⟨⟨rfl, rfl⟩, .defaults u, ?_, ?_⟩, rfl, rfl, rfl, rfl, rfl, rfl⟩
  · refine ⟨⟨rfl, rfl⟩, ⟨⟨le_rfl, Nat.one_le_ofNat⟩, Nat.one_pos⟩, fun r hr => ?_, fun limit =>
      ⟨fun r hr => ?_, fun t ht => ?_⟩⟩
    · rw [List.eq_of_mem_replicate hr]
      exact le_rfl
    · rw [List.eq_of_mem_replicate hr]
      exact Nat.mul_pos (by decide) (Nat.pos_of_ne_zero limit)
    · rw [List.eq_of_mem_replicate ht]
      exact Nat.mul_pos (by decide) (Nat.pos_of_ne_zero limit)
  · exact ⟨fun limit => ⟨⟨Nat.pos_of_ne_zero limit, le_rfl⟩, Nat.pos_of_ne_zero limit, le_rfl⟩, rfl⟩

theorem powerOn_kept (s : State) (p : Pins) (u : Nat) (phase : Phase) (work : List ArrayOp) (queue : List Instr) :
    Kept s (State.powerOn p u phase work queue) := by
  obtain ⟨events, settings, queues, sparse, buffer, reserve, _⟩ := powerOn_ok p u phase work queue
  exact ⟨fun _ => events, fun _ => settings, fun _ => queues, fun _ => sparse, fun _ => buffer, fun _ => reserve⟩

/-- A release of PORST gives power-on values (R158). -/
theorem atRelease_powerOn (p : Pins) (g : BitVec 2) (queue : List Instr) :
    ∃ p' u phase work, State.atRelease p g queue = State.powerOn p' u phase work queue := by
  unfold State.atRelease
  dsimp only
  split <;> exact ⟨_, _, _, _, rfl⟩

/-- PORST leaves the state or gives power-on values (R8, R158). -/
theorem exec_porst {c : Instr} (porst : c = .porstAssert ∨ ∃ g, c = .porstRelease g) (s : State) :
    exec c s = .next s ∨ ∃ p u phase work, exec c s = .next (State.powerOn p u phase work s.pending) := by
  rcases porst with rfl | ⟨g, rfl⟩
  · change Host.Outcome.next _ = _ ∨ _
    by_cases held : s.pins.porst = true
    · exact .inl (by rw [if_pos held])
    · exact .inr ⟨_, _, _, _, by rw [exec, execPorstAssert, if_neg held]⟩
  · by_cases held : s.pins.porst = true
    · obtain ⟨p, u, phase, work, release⟩ := atRelease_powerOn s.pins g s.pending
      exact .inr ⟨p, u, phase, work, by rw [exec, execPorstRelease, if_pos held, release]⟩
    · exact .inl (by rw [exec, execPorstRelease, if_neg held])

theorem exec_kept (c : Instr) (s : State) : Leads Kept (exec c s) s := by
  by_cases keeps : keepsAll c = true
  · exact (exec_keptAll keeps s).mono fun _ h => h.toKept
  have porst {c : Instr} (h : c = .porstAssert ∨ ∃ g, c = .porstRelease g) : Leads Kept (exec c s) s := by
    rcases exec_porst h s with same | ⟨p, u, phase, work, power⟩
    · exact same ▸ .next (.refl s)
    · exact power ▸ .next (powerOn_kept s p u phase work _)
  cases c
  case porstAssert => exact porst (.inl rfl)
  case porstRelease g => exact porst (.inr ⟨g, rfl⟩)
  case incidentPop v =>
    refine .next ?_
    split
    · exact .refl s
    · exact popIncident_kept s
  case registerWrite index v =>
    refine .next ?_
    split
    · exact .refl s
    · exact writeRegister_kept index v s
  case imageReadComplete ecc records => exact (imageReadComplete_keptMost ecc records s).mono fun _ h => h.toKept
  all_goals exact absurd rfl keeps

/-- Taking the command at the front from the queue changes no block (R173). -/
theorem KeptAll.setPending (queue : List Instr) (s : State) : KeptAll s { s with pending := queue } :=
  ⟨⟨⟨id, id, id, id, id, id⟩, rfl, rfl⟩, fun _ => id⟩

theorem step_kept (s : State) : Leads Kept (step s) s := by
  unfold step
  split
  · exact .next (tick_kept s).toKept
  · next c rest _ => exact fun t next => (KeptAll.setPending rest s).toKept.trans (exec_kept c _ t next)

/-- Settles O55: the power-on values meet every invariant, and a reset is a release of PORST. -/
theorem resetMeetsTheInvariants : Obligations.ResetMeetsTheInvariants := by
  intro pins g queue s hs
  have power : ∃ p u phase work q, s = State.powerOn p u phase work q := by
    simp only [List.mem_cons, List.not_mem_nil, or_false] at hs
    rcases hs with rfl | rfl
    · obtain ⟨p, u, phase, work, release⟩ := atRelease_powerOn _ _ _
      exact ⟨p, u, phase, work, _, release⟩
    · obtain ⟨p, u, phase, work, release⟩ := atRelease_powerOn _ _ _
      exact ⟨p, u, phase, work, _, release⟩
  obtain ⟨p, u, phase, work, q, rfl⟩ := power
  obtain ⟨events, ⟨shapes, sequence, regions, classes, watches, fences, lock⟩, rest⟩ := powerOn_ok p u phase work q
  exact ⟨events, shapes, sequence, regions, classes, watches, fences, lock, rest⟩

/-- Settles O56: `Kept` of a step. -/
theorem eventsStayWellFormed : Obligations.EventsStayWellFormed :=
  fun s t ok next => (step_kept s t next).events ok

/-- Settles O57: `Kept` of a step. -/
theorem settingsStayWellFormed : Obligations.SettingsStayWellFormed :=
  fun s t shapes sequence regions classes watches fences lock next =>
    (step_kept s t next).settings ⟨shapes, sequence, regions, classes, watches, fences, lock⟩

/-- Settles O58: `Kept` of a step. -/
theorem queuesAndSparseTablesStayCanonical : Obligations.QueuesAndSparseTablesStayCanonical :=
  fun s t queues sparse next => ⟨(step_kept s t next).queues queues, (step_kept s t next).sparse sparse⟩

/-- Settles O59: `Kept` of a step. -/
theorem bufferStaysWithinItsRules : Obligations.BufferStaysWithinItsRules :=
  fun s t buffer reserve next => ⟨(step_kept s t next).buffer buffer, (step_kept s t next).reserve reserve⟩

end Sys2Proof.Machine
end

section
namespace Sys2Proof.Machine

/-! ### The spare pool while the image is loaded (R159 to R161) -/

/-! #### The slots below a bound -/

/-- Every slot that is DEAD or named by an entry is below `n`. -/
def Below (n : Nat) (s : State) : Prop := (∀ m ∈ tableSlots s, m < n) ∧ ∀ m ∈ s.remap.dead, m < n

theorem untouchedFrom_iff (n : Nat) (s : State) : untouchedFrom n s = true ↔ Below n s := by
  simp only [untouchedFrom, Below, tableSlots, Bool.and_eq_true, List.all_eq_true, decide_eq_true_eq,
    List.forall_mem_map]
  exact and_comm

theorem Below.mono {n m : Nat} {s : State} (le : n ≤ m) (h : Below n s) : Below m s :=
  ⟨fun k hk => (h.1 k hk).trans_le le, fun k hk => (h.2 k hk).trans_le le⟩

/-- No slot goes DEAD or comes into use; some may leave. -/
def SlotsWithin (s t : State) : Prop :=
  (∀ m ∈ tableSlots t, m ∈ tableSlots s) ∧ ∀ m ∈ t.remap.dead, m ∈ s.remap.dead

theorem SlotsWithin.refl (s : State) : SlotsWithin s s := ⟨fun _ h => h, fun _ h => h⟩

theorem SlotsWithin.trans {s t u : State} (h : SlotsWithin s t) (k : SlotsWithin t u) : SlotsWithin s u :=
  ⟨fun m hm => h.1 m (k.1 m hm), fun m hm => h.2 m (k.2 m hm)⟩

/-- `trans` in the order of an expression: the outer operation first. -/
theorem SlotsWithin.after {s t u : State} (k : SlotsWithin t u) (h : SlotsWithin s t) : SlotsWithin s u := h.trans k

theorem SlotsWithin.of_same {s t : State} (table : t.remap.table = s.remap.table) (dead : t.remap.dead = s.remap.dead) :
    SlotsWithin s t := by
  unfold SlotsWithin tableSlots
  rw [table, dead]
  exact ⟨fun _ h => h, fun _ h => h⟩

theorem SlotsWithin.of_remap {s t : State} (same : t.remap = s.remap) : SlotsWithin s t := by
  refine .of_same ?_ ?_ <;> rw [same]

theorem SlotsWithin.of_empty {s t : State} (table : t.remap.table = []) (dead : t.remap.dead = []) :
    SlotsWithin s t := by
  unfold SlotsWithin tableSlots
  rw [table, dead]
  exact ⟨nofun, nofun⟩

theorem Below.within {n : Nat} {s t : State} (h : Below n s) (k : SlotsWithin s t) : Below n t :=
  ⟨fun m hm => h.1 m (k.1 m hm), fun m hm => h.2 m (k.2 m hm)⟩

theorem SlotsWithin.foldl {α : Type} {f : State → α → State} (step : ∀ t a, SlotsWithin t (f t a)) (l : List α)
    (s : State) : SlotsWithin s (l.foldl f s) := by
  induction l generalizing s with
  | nil => exact .refl s
  | cons a l ih => exact (step s a).trans (ih (f s a))

theorem SlotsWithin.ite {c : Prop} [Decidable c] {s t u : State} (ht : SlotsWithin s t) (hu : SlotsWithin s u) :
    SlotsWithin s (if c then t else u) := by
  split
  · exact ht
  · exact hu

/-! #### What the reads of the image do to the pool -/

theorem deadSlot_table (slot : Nat) (s : State) : (deadSlot slot s).remap.table = s.remap.table := by
  simp [deadSlot]

theorem deadSlot_dead (slot : Nat) (s : State) : (deadSlot slot s).remap.dead = insertNat s.remap.dead slot := by
  simp [deadSlot]

theorem damageSlot_remap (slot : Nat) (s : State) : (damageSlot slot s).remap = (deadSlot slot s).remap := by
  simp [damageSlot, addRepair]
  split <;> rfl

theorem bindSlot_table (slot line : Nat) (data : DataState) (origin : Origin) (generation : BitVec 8) (s : State) :
    (bindSlot slot line data origin generation s).remap.table
      = sparseSet s.remap.table line { slot, data, origin, generation } := by
  simp [bindSlot]

theorem bindSlot_dead (slot line : Nat) (data : DataState) (origin : Origin) (generation : BitVec 8) (s : State) :
    (bindSlot slot line data origin generation s).remap.dead = s.remap.dead := by
  simp [bindSlot]

/-- The slots and the DEAD slots after a record is taken into a slot: the slot was FREE and stays so, or it goes DEAD,
or it comes into use for a line with no entry, or for one whose held slot then goes DEAD (R160, R161). -/
theorem takeRecord_cases (slot : Nat) (r : RawRecord) (s : State) :
    let t := takeRecord slot r s
    (t.remap.table = s.remap.table ∧ t.remap.dead = s.remap.dead)
      ∨ (t.remap.table = s.remap.table ∧ t.remap.dead = insertNat s.remap.dead slot)
      ∨ ∃ line e, e.slot = slot ∧ t.remap.table = sparseSet s.remap.table line e
        ∧ ((remapEntry s line = none ∧ t.remap.dead = s.remap.dead)
          ∨ ∃ held, remapEntry s line = some held ∧ t.remap.dead = insertNat s.remap.dead held.slot) := by
  have damaged : (damageSlot slot s).remap.table = s.remap.table
      ∧ (damageSlot slot s).remap.dead = insertNat s.remap.dead slot := by
    rw [damageSlot_remap]
    exact ⟨deadSlot_table slot s, deadSlot_dead slot s⟩
  dsimp only
  unfold takeRecord
  split
  · exact .inr (.inl damaged)
  · exact .inl ⟨rfl, rfl⟩
  · exact .inr (.inl ⟨deadSlot_table slot s, deadSlot_dead slot s⟩)
  · split
    · next data origin _ _ =>
      split
      · unfold takeInUse
        split
        · next absent =>
          exact .inr (.inr ⟨r.line, ⟨slot, data, origin, r.generation⟩, rfl, bindSlot_table ..,
            .inl ⟨absent, bindSlot_dead ..⟩⟩)
        · next held present =>
          split
          · refine .inr (.inr ⟨r.line, ⟨slot, data, origin, r.generation⟩, rfl, ?_, .inr ⟨held, present, ?_⟩⟩)
            · rw [damageSlot_remap, deadSlot_table, bindSlot_table]
            · rw [damageSlot_remap, deadSlot_dead, bindSlot_dead]
          · exact .inr (.inl damaged)
      · exact .inr (.inl damaged)
    · exact .inr (.inl damaged)

/-- The value of a key stands in the table. -/
theorem mem_of_sparseGet {α : Type} {l : List (Nat × α)} {k : Nat} {v : α} (h : sparseGet l k = some v) :
    (k, v) ∈ l := by
  induction l with
  | nil => cases h
  | cons a l ih =>
    obtain ⟨x, y⟩ := a
    simp only [sparseGet] at h
    split at h
    · next same =>
      cases h
      exact same ▸ List.mem_cons_self
    · exact List.mem_cons_of_mem _ (ih h)

/-- The slot of a line's entry is named by the table. -/
theorem slot_mem_tableSlots {s : State} {line : Nat} {e : RemapEntry} (h : remapEntry s line = some e) :
    e.slot ∈ tableSlots s := by
  have found : (line, e) ∈ s.remap.table := mem_of_sparseGet h
  exact List.mem_map_of_mem (f := fun p : Nat × RemapEntry => p.2.slot) found

theorem takeRecord_below {n : Nat} (r : RawRecord) {s : State} (below : Below n s) :
    Below (n + 1) (takeRecord n r s) := by
  have wide := below.mono (Nat.le_succ n)
  have insert {slot : Nat} (h : slot < n + 1) : ∀ m ∈ insertNat s.remap.dead slot, m < n + 1 := by
    intro m hm
    rcases (mem_insertNat _ _ _).1 hm with rfl | hm
    · exact h
    · exact wide.2 m hm
  rcases takeRecord_cases n r s with ⟨table, dead⟩ | ⟨table, dead⟩ | ⟨line, e, here, table, bound⟩
  · exact wide.within (.of_same table dead)
  · refine ⟨fun m hm => wide.1 m ?_, dead ▸ insert (Nat.lt_succ_self n)⟩
    rwa [tableSlots, table] at hm
  · refine ⟨fun m hm => ?_, ?_⟩
    · rw [tableSlots, table] at hm
      obtain ⟨p, hp, rfl⟩ := List.mem_map.1 hm
      rcases mem_sparseSet hp with rfl | hp
      · exact here ▸ Nat.lt_succ_self n
      · exact wide.1 _ (List.mem_map_of_mem hp)
    · rcases bound with ⟨_, dead⟩ | ⟨held, present, dead⟩
      · exact dead ▸ wide.2
      · exact dead ▸ insert (wide.1 _ (slot_mem_tableSlots present))

/-- The slot that is taken next: it exists and is FREE. -/
theorem freeSlot_of_below {n : Nat} {s : State} (exist : n < 4096) (below : Below n s) : freeSlot s n = true :=
  (freeSlot_iff s n).mpr ⟨exist, fun h => (below.2 n h).ne rfl, fun h => (below.1 n h).ne rfl⟩

theorem takeRecord_slotsOk {n : Nat} (r : RawRecord) {s : State} (exist : n < 4096) (below : Below n s)
    (rising : sparseWf s.remap.table = true) (ok : SlotsOk (tableSlots s) s.remap.dead) :
    SlotsOk (tableSlots (takeRecord n r s)) (takeRecord n r s).remap.dead := by
  have free := freeSlot_of_below exist below
  obtain ⟨_, alive, unnamed⟩ := (freeSlot_iff s n).mp free
  rcases takeRecord_cases n r s with ⟨table, dead⟩ | ⟨table, dead⟩ | ⟨line, e, here, table, bound⟩
    <;> rw [tableSlots, table]
  · exact dead ▸ ok
  · exact dead ▸ ok.kill exist unnamed
  · rcases bound with ⟨absent, dead⟩ | ⟨held, present, dead⟩
    · rw [dead]
      refine .perm ((sparseSet_perm e absent).map _) ?_
      rw [List.map_cons, here]
      exact ok.bind exist alive unnamed
    · exact dead ▸ .live_again rising ok free present here

theorem takeRecord_rising (slot : Nat) (r : RawRecord) {s : State} (rising : sparseWf s.remap.table = true) :
    sparseWf (takeRecord slot r s).remap.table = true := by
  rcases takeRecord_cases slot r s with ⟨table, _⟩ | ⟨table, _⟩ | ⟨line, e, _, table, _⟩ <;> rw [table]
  · exact rising
  · exact rising
  · exact sparseWf_set _ _ _ rising

/-- What is true of the pool when the slots below `n` have been taken. -/
structure TakenBelow (n : Nat) (s : State) : Prop where
  below : Below n s
  slots : SlotsOk (tableSlots s) s.remap.dead
  rising : sparseWf s.remap.table = true
  serving : s.remap.serving = none

/-- The requests of the Remap Unit: the work list, what its head waits for, and the no-data queue. -/
def SameRequests (s t : State) : Prop :=
  t.remap.workList = s.remap.workList ∧ t.remap.serving = s.remap.serving ∧ t.remap.noData = s.remap.noData

theorem SameRequests.trans {s t u : State} (h : SameRequests s t) (k : SameRequests t u) : SameRequests s u := by
  obtain ⟨work, serving, noData⟩ := h
  exact ⟨k.1.trans work, k.2.1.trans serving, k.2.2.trans noData⟩

theorem SameRequests.of_remap {s t : State} (same : t.remap = s.remap) : SameRequests s t := by
  refine ⟨?_, ?_, ?_⟩ <;> rw [same]

theorem setRecord_requests (slot : Nat) (r : SlotRecord) (s : State) : SameRequests s (setRecord slot r s) :=
    ⟨rfl, rfl, rfl⟩

theorem deadSlot_requests (slot : Nat) (s : State) : SameRequests s (deadSlot slot s) := ⟨rfl, rfl, rfl⟩

theorem damageSlot_requests (slot : Nat) (s : State) : SameRequests s (damageSlot slot s) :=
  (deadSlot_requests slot s).trans (.of_remap (damageSlot_remap slot s))

/-- A record that is taken makes no request (R160). -/
theorem takeRecord_requests (slot : Nat) (r : RawRecord) (s : State) : SameRequests s (takeRecord slot r s) := by
  unfold takeRecord
  split
  · exact damageSlot_requests slot s
  · exact ⟨rfl, rfl, rfl⟩
  · exact deadSlot_requests slot s
  · split
    · split
      · unfold takeInUse
        split
        · exact ⟨rfl, rfl, rfl⟩
        · split
          · exact .trans ⟨rfl, rfl, rfl⟩ (damageSlot_requests _ _)
          · exact damageSlot_requests slot s
      · exact damageSlot_requests slot s
    · exact damageSlot_requests slot s

theorem TakenBelow.takeRecord {n : Nat} (r : RawRecord) {s : State} (exist : n < 4096) (h : TakenBelow n s) :
    TakenBelow (n + 1) (takeRecord n r s) where
  below := takeRecord_below r h.below
  slots := takeRecord_slotsOk r exist h.below h.rising h.slots
  rising := takeRecord_rising n r h.rising
  serving := (takeRecord_requests n r s).2.1.trans h.serving

/-- A fold over the numbers below `m`, whose step takes `P i` to `P (i + 1)`. -/
theorem foldl_range_induction {P : Nat → State → Prop} {f : State → Nat → State} {m : Nat}
    (step : ∀ i < m, ∀ s, P i s → P (i + 1) (f s i)) {s : State} (start : P 0 s) : P m ((List.range m).foldl f s) := by
  induction m with
  | zero => exact start
  | succ m ih =>
    rw [List.range_succ, List.foldl_append]
    exact step m (Nat.lt_succ_self m) _ (ih fun i hi => step i (hi.trans (Nat.lt_succ_self m)))

theorem TakenBelow.mono {n m : Nat} {s : State} (le : n ≤ m) (h : TakenBelow n s) : TakenBelow m s :=
  ⟨h.below.mono le, h.slots, h.rising, h.serving⟩

/-- Slots 4k to 4k + 3 taken: a property that every slot taken carries one slot further ends at 4(k + 1). -/
theorem takeRecords_induction {P : Nat → State → Prop} (mono : ∀ n s, P n s → P (n + 1) s) {k : Nat}
    (take : ∀ n r s, n < 4 * (k + 1) → P n s → P (n + 1) (takeRecord n r s)) (records : List RawRecord) {s : State}
    (start : P (4 * k) s) : P (4 * (k + 1)) (takeRecords k records s) := by
  refine foldl_range_induction (P := fun i => P (4 * k + i)) (f := fun t i => takeNth k records i t)
    (fun i hi s h => ?_) start
  change P (4 * k + i + 1) _
  unfold takeNth
  split
  · exact take _ _ s (by omega) h
  · exact mono _ s h

/-- A slot of an UNCORRECTABLE image line is taken as a DEAD record is. -/
theorem deadSlot_eq_takeRecord (slot : Nat) (s : State) :
    deadSlot slot s
      = takeRecord slot { state := some .dead, line := 0, data := none, origin := none, generation := 0#8 } s := rfl

theorem damagedImage_remap (k : Nat) (s : State) :
    (damagedImage k s).remap = ((List.range 4).foldl (fun t i => deadSlot (4 * k + i) t) s).remap := by
  simp [damagedImage]

/-- The image line read UNCORRECTABLE: every slot goes DEAD. -/
theorem damagedSlots_induction {P : Nat → State → Prop} {k : Nat}
    (take : ∀ n r s, n < 4 * (k + 1) → P n s → P (n + 1) (takeRecord n r s)) {s : State} (start : P (4 * k) s) :
    P (4 * (k + 1)) ((List.range 4).foldl (fun t i => deadSlot (4 * k + i) t) s) := by
  refine foldl_range_induction (P := fun i => P (4 * k + i)) (f := fun t i => deadSlot (4 * k + i) t)
    (fun i hi s h => ?_) start
  have below : 4 * k + i < 4 * (k + 1) := by omega
  exact deadSlot_eq_takeRecord (4 * k + i) s ▸ take (4 * k + i) _ s below h

/-! #### A loading read in flight: no other operation completes (R82, R96) -/

/-- The operation in flight, if there is one, is a loading read. -/
def LoadOnly (s : State) : Prop := ∀ o, s.link.inFlight = some o → ∃ l, o.purpose = .loadRead l

theorem loadOnly_of_loadInFlight {s : State} {l : MetaLine} (h : loadInFlight s = some l) : LoadOnly s := by
  intro o flight
  simp only [loadInFlight, inFlightFor, flight] at h
  split at h
  · exact ⟨_, by assumption⟩
  · cases h

theorem LoadOnly.inFlightFor {α : Type} {s : State} (h : LoadOnly s) {want : Purpose → Option α}
    (foreign : ∀ l, want (.loadRead l) = none) : inFlightFor s want = none := by
  unfold Sys2Proof.Machine.inFlightFor
  split
  · next o flight =>
    obtain ⟨l, purpose⟩ := h o flight
    rw [purpose]
    exact foreign l
  · rfl

theorem LoadOnly.readDone {s : State} (h : LoadOnly s) (ecc : Ecc) (data : LineData) : readDone ecc data s = s := by
  have due : readDue s = none := h.inFlightFor fun _ => rfl
  simp [Sys2Proof.Machine.readDone, due]

theorem LoadOnly.mergeDone {s : State} (h : LoadOnly s) (ecc : Ecc) (data : LineData) : mergeDone ecc data s = s := by
  have due : mergeDue s = none := h.inFlightFor fun _ => rfl
  simp [Sys2Proof.Machine.mergeDone, due]

theorem LoadOnly.programDone {s : State} (h : LoadOnly s) (ok : Bool) : programDone ok s = s := by
  have due : programDue s = none := h.inFlightFor fun _ => rfl
  have storage : storageDue s = none := h.inFlightFor fun _ => rfl
  simp [Sys2Proof.Machine.programDone, due, storage]

theorem LoadOnly.verifyDone {s : State} (h : LoadOnly s) (ecc : Ecc) : verifyDone ecc s = s := by
  have due : verifyDue s = none := h.inFlightFor fun _ => rfl
  simp [Sys2Proof.Machine.verifyDone, due]

theorem LoadOnly.spareProgramDone {s : State} (h : LoadOnly s) (ok : Bool) : spareProgramDone ok s = s := by
  have due : spareDue s = false := by
    unfold spareDue
    cases flight : s.link.inFlight with
    | none => rfl
    | some o =>
      obtain ⟨l, purpose⟩ := h o flight
      simp [purpose]
  simp [Sys2Proof.Machine.spareProgramDone, due]

theorem LoadOnly.metaDone {s : State} (h : LoadOnly s) (named : MetaLine → List MetaAsker → Bool) (ok : Bool) :
    metaDone named ok s = s := by
  have due : metaDue s = none := h.inFlightFor fun _ => rfl
  simp [Sys2Proof.Machine.metaDone, due]

theorem LoadOnly.formatDone {s : State} (h : LoadOnly s) (ok : Bool) : formatDone ok s = s := by
  have due : formatInFlight s = none := h.inFlightFor fun _ => rfl
  simp [Sys2Proof.Machine.formatDone, due]

theorem LoadOnly.sourceDone {s : State} (h : LoadOnly s) (ecc : Ecc) (data : LineData) : sourceDone ecc data s = s := by
  have due : jobReadDue s = none := h.inFlightFor fun _ => rfl
  simp [Sys2Proof.Machine.sourceDone, due]

theorem LoadOnly.patrolDone {s : State} (h : LoadOnly s) (ecc : Ecc) : patrolDone ecc s = s := by
  have due : patrolDue s = none := h.inFlightFor fun _ => rfl
  simp [Sys2Proof.Machine.patrolDone, due]

/-! #### Every other command takes no slot -/

theorem joinWork_within (r : Request) (s : State) : SlotsWithin s (joinWork r s) := by
  unfold joinWork
  dsimp only
  split
  · exact .of_same (by simp) (by simp)
  · exact .of_same rfl rfl

theorem placeCourseOp_within (purpose : Purpose) (line : Nat) (action : OpAction) (first : Bool) (s : State) :
    SlotsWithin s (placeCourseOp purpose line action first s) := .of_remap (by simp)

theorem requestImage_within (slot : Nat) (s : State) : SlotsWithin s (requestImage slot s) := .of_remap (by simp)

theorem startCourse_within (w : Writer) (line : Nat) (mask : Mask) (bytes : LineData) (s : State) :
    SlotsWithin s (startCourse w line mask bytes s) := by
  have set (c : Course) : SlotsWithin s (setCourse w c (orderByGrant w s)) := .of_remap (by simp)
  unfold startCourse
  dsimp only
  split_ifs
  · exact (placeCourseOp_within _ _ _ _ _).after (set _)
  · exact (joinWork_within _ _).after (set _)
  · exact (placeCourseOp_within _ _ _ _ _).after (set _)

theorem claimThrough_within (t : ThroughWrite) (s : State) : SlotsWithin s (claimThrough t s) := by
  unfold claimThrough
  exact .ite ((startCourse_within _ _ _ _ _).after (.of_remap (by simp))) (.of_remap (by simp))

theorem withdrawRequests_within (w : Writer) (s : State) : SlotsWithin s (withdrawRequests w s) := .of_same rfl rfl

theorem requestNoData_within (line : Nat) (origin : Origin) (s : State) :
    SlotsWithin s (requestNoData line origin s) := by
  unfold requestNoData
  split_ifs
  · exact .refl s
  · exact .of_remap (by simp)
  · exact .of_same rfl rfl

theorem conclude_within (v : Verdict) (s : State) : SlotsWithin s (conclude v s) := by
  cases work : s.remap.workList with
  | nil => exact .of_remap (by simp [conclude, work])
  | cons r rest => exact .of_same (by rw [conclude_remap v work]) (by rw [conclude_remap v work])

theorem setServing_within (v : Serving) (s : State) : SlotsWithin s (setServing v s) := .of_same rfl rfl

theorem setRecord_within (slot : Nat) (r : SlotRecord) (s : State) : SlotsWithin s (setRecord slot r s) :=
  .of_same (setRecord_table slot r s) (setRecord_dead slot r s)

theorem placeInUse_within (slot : Nat) (s : State) : SlotsWithin s (placeInUse slot s) := by
  unfold placeInUse
  split
  · exact .refl s
  · exact (requestImage_within _ _).after ((setServing_within _ _).after (setRecord_within _ _ s))

theorem judgeReassign_within (s : State) : SlotsWithin s (judgeReassign s) := by
  unfold judgeReassign
  split
  · exact conclude_within _ s
  · split
    · exact conclude_within _ s
    · split
      · exact (placeCourseOp_within _ _ _ _ _).after (setServing_within _ s)
      · exact placeInUse_within _ s
      · exact .refl s

theorem setDataState_within (line : Nat) (data : DataState) (s : State) : SlotsWithin s (setDataState line data s) := by
  unfold setDataState
  split
  · exact .refl s
  · next e held =>
    refine ⟨fun m hm => ?_, fun m hm => hm⟩
    obtain ⟨p, hp, rfl⟩ := List.mem_map.1 hm
    rcases mem_sparseSet hp with rfl | hp
    · exact slot_mem_tableSlots (e := e) held
    · exact List.mem_map_of_mem (f := fun p : Nat × RemapEntry => p.2.slot) hp

theorem beginRecording_within (line : Nat) (known : Mask) (s : State) :
    SlotsWithin s (beginRecording line known s) := by
  unfold beginRecording
  split
  · exact conclude_within _ s
  · refine .ite ((conclude_within _ _).after ((setDataState_within _ _ _).after (setRecord_within _ _ s))) ?_
    exact (requestImage_within _ _).after ((setServing_within _ _).after (setRecord_within _ _ s))

theorem storageToReassign_within (s : State) : SlotsWithin s (storageToReassign s) := by
  unfold storageToReassign
  split
  · exact (judgeReassign_within _).after (.of_same rfl rfl)
  · exact .refl s

theorem serveStorage_within (s : State) : SlotsWithin s (serveStorage s) := by
  unfold serveStorage
  split
  · refine .ite (.ite (conclude_within _ s) ?_) (storageToReassign_within s)
    exact (placeCourseOp_within _ _ _ _ _).after (setServing_within _ s)
  · exact .refl s

theorem serveReassign_within (s : State) : SlotsWithin s (serveReassign s) := by
  unfold serveReassign
  split
  · exact judgeReassign_within s
  · exact judgeReassign_within s
  · exact .refl s

theorem serveMergeFail_within (s : State) : SlotsWithin s (serveMergeFail s) := by
  unfold serveMergeFail
  split
  · exact serveStorage_within s
  · exact .refl s

theorem serveRecording_within (s : State) : SlotsWithin s (serveRecording s) := by
  unfold serveRecording
  split
  · exact beginRecording_within _ _ s
  · exact .refl s

theorem selectDrain_within (s : State) : SlotsWithin s (selectDrain s) := by
  unfold selectDrain
  split
  · exact .refl s
  · split
    · exact .refl s
    · exact (startCourse_within _ _ _ _ _).after (.of_remap (by simp))

theorem noDataGranted_within (s : State) : SlotsWithin s (noDataGranted s) := by
  unfold noDataGranted
  split
  · exact .refl s
  · exact (joinWork_within _ _).after (.of_same rfl rfl)

theorem askNoData_within (s : State) : SlotsWithin s (askNoData s) := by
  unfold askNoData
  split
  · exact .refl s
  · next q _ _ =>
    have asked : SlotsWithin s
        (requestClaim q.line .exclusive .noData { s with remap := { s.remap with noDataAsked := true } }) :=
      .of_same (by simp) (by simp)
    exact .ite (.refl s) (.ite ((noDataGranted_within _).after asked) asked)

theorem granteeStep_within (o : Claimant) (s : State) : SlotsWithin s (granteeStep o s) := by
  unfold granteeStep
  split
  · split
    · exact .of_remap (by simp)
    · exact .refl s
  · exact .refl s
  · split
    · exact startCourse_within _ _ _ _ s
    · exact .refl s
  · exact .of_remap (by simp)
  · exact noDataGranted_within s

theorem grantFront_within {line : Nat} {o : Claimant} {s t : State} (h : grantFront line s = some (o, t)) :
    SlotsWithin s t := by
  unfold grantFront at h
  dsimp only at h
  split at h
  · cases h
  · split at h
    · cases h
      exact .of_remap (by simp)
    · cases h

theorem grantWaiting_within (line fuel : Nat) (s : State) : SlotsWithin s (grantWaiting line fuel s) := by
  induction fuel generalizing s with
  | zero => exact .refl s
  | succ fuel ih =>
    unfold grantWaiting
    split
    · exact .refl s
    · next granted => exact (ih _).after ((granteeStep_within _ _).after (grantFront_within granted))

theorem settleClaims_within (line : Nat) (s : State) : SlotsWithin s (settleClaims line s) :=
    grantWaiting_within line _ s

theorem intakeThrough_within (p : Port) (t : Taken) (s : State) : SlotsWithin s (intakeThrough p t s) := by
  have held (w : ThroughWrite) : SlotsWithin s
      (setStand p t.serial .through { s with path := { s.path with throughs := s.path.throughs ++ [w] } }) :=
    .of_remap (by simp)
  have claimed (t : State) (line : Nat) (w : ThroughWrite) :
      SlotsWithin t (if lineClear t line then claimThrough w t else t) := .ite (claimThrough_within w t) (.refl t)
  exact .ite (.of_remap (by simp)) ((claimed _ _ _).after
    ((SlotsWithin.ite (.of_remap (by simp)) (.refl _)).after (held _)))

theorem checkWatches_within (p : Port) (t : Taken) (cls : Nat) (s : State) :
    SlotsWithin s (checkWatches p t cls s) := by
  have tested : SlotsWithin s (sequenceStep p t.tx (watchStep p t.tx s)) := .of_remap (by simp)
  unfold checkWatches
  dsimp only
  split
  · exact .of_remap (by simp)
  · split
    · exact .of_remap (by simp)
    · refine .ite (.of_remap (by simp)) (.after ?_ tested)
      exact .ite (.of_remap (by simp)) (intakeThrough_within _ _ _)

theorem runIntake_within (p : Port) (s : State) : SlotsWithin s (runIntake p s) := by
  unfold runIntake
  split
  · exact .refl s
  · refine .ite ?_ (.refl s)
    unfold checkTransaction
    dsimp only
    split_ifs
    · exact .of_remap (by simp)
    · exact .of_remap (by simp)
    · exact .of_remap (by simp)
    · exact .of_remap (by simp)
    · exact checkWatches_within _ _ _ s

theorem requestThrough_within (p : Port) (s : State) : SlotsWithin s (requestThrough p s) := by
  unfold requestThrough
  split
  · exact .refl s
  · exact .ite (claimThrough_within _ s) (.refl s)

theorem systemReset_within (s : State) : SlotsWithin s (systemReset s) := by
  have reads (s : State) (l : List SystemRead) : SlotsWithin s (l.foldl (fun t r => srstRead r t) s) :=
    .of_remap (by simp)
  have throughs (s : State) (l : List ThroughWrite) : SlotsWithin s (l.foldl (fun t w => srstThrough w t) s) := by
    refine .foldl (fun t (w : ThroughWrite) => ?_) l s
    exact .ite (.of_remap (by simp)) (.after (.of_remap (by simp)) (withdrawRequests_within (.through w.serial) t))
  have left := (reads s s.path.reads).trans (throughs _ (s.path.reads.foldl (fun t r => srstRead r t) s).path.throughs)
  exact left.trans (.of_remap (by simp [systemReset]))

theorem retireJudged_within (s : State) : SlotsWithin s (retireJudged s) := by
  refine .ite (.of_remap (by simp)) (.ite (.of_remap (by simp)) ?_)
  unfold retireLine
  split_ifs
  · have removed : SlotsWithin s (removeCandidate (paramNat s 0) s) := .of_remap (by simp)
    have requested := removed.trans (requestNoData_within (paramNat s 0) .retireCommand _)
    exact .ite (.of_remap (by simp)) (requested.trans (.of_remap (by simp)))
  all_goals exact .of_remap (by simp)

theorem formatArray_within (s : State) : SlotsWithin s (formatArray s) := by
  unfold formatArray
  split
  · exact .of_remap (by simp)
  · split
    · exact .of_remap (by simp)
    · exact .ite (.of_remap (by simp)) (.of_empty (by simp [startFormat]) (by simp [startFormat]))

/-- A meaning that does nothing to `s`. -/
theorem Leads.noop {r : State → State → Prop} {f : State → State} {s : State} (refl : r s s) (same : f s = s) :
    Leads r (Sys2Proof.Machine.onPart f s) s := by
  refine .next ?_
  split
  · exact refl
  · rwa [same]

theorem Leads.within {f : State → State} {s : State} (within : SlotsWithin s (f s)) :
    Leads SlotsWithin (Sys2Proof.Machine.onPart f s) s := .next (.ite (.refl s) within)

theorem Leads.remapEdge {f : State → State} (same : ∀ s, (f s).remap = s.remap) (p : Pins) (s : State) :
    Leads SlotsWithin (Sys2Proof.Machine.onPart f { s with pins := p }) s := by
  refine .next (.ite (.of_remap rfl) (.of_remap ?_))
  exact same _

theorem takeCommand_within {carry : State → State} (within : ∀ s, SlotsWithin s (carry s)) (code : BitVec 8)
    (s : State) : SlotsWithin s (takeCommand code carry s) := by
  unfold takeCommand
  split_ifs
  · exact .refl s
  · exact .of_remap (by simp)
  · exact (within _).after (.of_remap rfl)

/-- A command code whose meaning leaves the Remap Unit alone. -/
theorem Leads.codeRemap {carry : State → State} (same : ∀ s, (carry s).remap = s.remap) (code : BitVec 8) (s : State) :
    Leads SlotsWithin (.next (Sys2Proof.Machine.takeCommand code carry s)) s :=
  .next (takeCommand_within (fun s => .of_remap (same s)) code s)

theorem underLock_remap {carry : State → State} (same : ∀ s, (carry s).remap = s.remap) (s : State) :
    (underLock carry s).remap = s.remap := by
  unfold underLock
  split
  · simp
  · split <;> simp [same]

theorem outsideGeometryFault_remap {carry : State → State} (same : ∀ s, (carry s).remap = s.remap) (s : State) :
    (outsideGeometryFault carry s).remap = s.remap := by
  unfold outsideGeometryFault
  split <;> simp [same]

theorem inService_remap {carry : State → State} (same : ∀ s, (carry s).remap = s.remap) (s : State) :
    (inService carry s).remap = s.remap := by
  unfold inService
  split <;> simp [same]

/-- The three commands by which a loading read completes (R159 to R162). -/
def completesLoad : Instr → Bool
  | .headerReadComplete _ _ | .imageReadComplete _ _ | .settingsReadComplete _ _ _ => true
  | _ => false

theorem execCancel_within (s : State) : Leads SlotsWithin (execCancel s) s := by
  unfold execCancel
  split
  · exact .within (.of_remap (by simp))
  · exact .codeRemap (fun s => by simp) _ s

theorem exec_within {c : Instr} (other : completesLoad c = false) {s : State} (load : LoadOnly s) :
    Leads SlotsWithin (exec c s) s := by
  have porst {c : Instr} (h : c = .porstAssert ∨ ∃ g, c = .porstRelease g) : Leads SlotsWithin (exec c s) s := by
    rcases exec_porst h s with same | ⟨p, u, phase, work, power⟩
    · exact same ▸ .next (.refl s)
    · exact power ▸ .next (.of_empty rfl rfl)
  cases c
  case headerReadComplete => cases other
  case imageReadComplete => cases other
  case settingsReadComplete => cases other
  case porstAssert => exact porst (.inl rfl)
  case porstRelease g => exact porst (.inr ⟨g, rfl⟩)
  -- the pins
  case srstAssert =>
    refine .ite (.next (.refl s)) (.next (.ite (.of_remap rfl) ?_))
    exact .after (systemReset_within _) (.of_remap rfl)
  case srstRelease => exact .ite (.remapEdge (f := openDrainWait) (fun s => by simp) _ s) (.next (.refl s))
  case pwarnAssert => exact .ite (.next (.refl s)) (.remapEdge (f := powerWarning) (fun s => by simp) _ s)
  case pwarnRelease => exact .next (.of_remap rfl)
  case agntAssert => exact .ite (.next (.refl s)) (.remapEdge (f := grantReturns) (fun s => by simp) _ s)
  case agntWithdraw => exact .ite (.remapEdge (f := grantFalls) (fun s => by simp) _ s) (.next (.refl s))
  -- the completions of other operations
  case systemReadComplete ecc data =>
    exact .within (f := fun s => settle (Sys2Proof.Machine.readDone ecc data s))
      (.after (.of_remap (by simp)) (.of_remap (congrArg _ (load.readDone ecc data))))
  case mergeReadComplete ecc data => exact .noop (.refl s) (load.mergeDone ecc data)
  case drainProgramComplete ok => exact .noop (.refl s) (load.programDone ok)
  case verifyReadComplete ecc => exact .noop (.refl s) (load.verifyDone ecc)
  case spareProgramComplete ok => exact .noop (.refl s) (load.spareProgramDone ok)
  case imageProgramComplete ok => exact .noop (.refl s) (load.metaDone _ ok)
  case settingsProgramComplete ok => exact .noop (.refl s) (load.metaDone _ ok)
  case repairProgramComplete ok => exact .noop (.refl s) (load.metaDone _ ok)
  case formatProgramComplete ok => exact .noop (.refl s) (load.formatDone ok)
  case relocationSourceReadComplete ecc data => exact .noop (.refl s) (load.sourceDone ecc data)
  case patrolReadComplete ecc => exact .noop (.refl s) (load.patrolDone ecc)
  -- what asks the Remap Unit or serves its requests
  case intake p => exact .within (runIntake_within p s)
  case throughWriteClaimRequest p => exact .within (requestThrough_within p s)
  case drainSelect => exact .within (selectDrain_within s)
  case claimGrant line =>
    exact .within (f := fun s => settle (settleClaims line s))
      ((settleClaims_within line s).trans (.of_remap (by simp)))
  case reassignServe =>
    exact .within (f := fun s => settle (serveReassign s)) ((serveReassign_within s).trans (.of_remap (by simp)))
  case mergeFailStorageServe => exact .within (serveMergeFail_within s)
  case dataStateRecordingServe => exact .within (serveRecording_within s)
  case noDataClaimRequest => exact .within (askNoData_within s)
  case retireLine => exact .next (takeCommand_within retireJudged_within _ s)
  case formatArray => exact .next (takeCommand_within formatArray_within _ s)
  -- the other command codes
  case setFence => exact .codeRemap (underLock_remap fun s => by simp) _ s
  case loadRegion => exact .codeRemap (underLock_remap fun s => by simp) _ s
  case loadClass => exact .codeRemap (underLock_remap fun s => by simp) _ s
  case saveSettings => exact .codeRemap (underLock_remap fun s => by simp) _ s
  case readRemap => exact .codeRemap (inService_remap fun s => by simp) _ s
  case readSlot => exact .codeRemap (inService_remap fun s => by simp) _ s
  case patrolStart => exact .codeRemap (inService_remap fun s => by simp) _ s
  case readLimits => exact .codeRemap (outsideGeometryFault_remap fun s => by simp) _ s
  case loadRange => exact .codeRemap (outsideGeometryFault_remap fun s => by simp) _ s
  case loadTarget => exact .codeRemap (outsideGeometryFault_remap fun s => by simp) _ s
  case sequenceSet => exact .codeRemap (outsideGeometryFault_remap fun s => by simp) _ s
  case sequenceArm => exact .codeRemap (outsideGeometryFault_remap fun s => by simp) _ s
  case sequenceDisarm => exact .codeRemap (outsideGeometryFault_remap fun s => by simp) _ s
  case drainAll => exact .codeRemap (outsideGeometryFault_remap fun s => by simp) _ s
  case setReserve => exact .codeRemap (outsideGeometryFault_remap fun s => by simp) _ s
  case readCandidate => exact .codeRemap (outsideGeometryFault_remap fun s => by simp) _ s
  case patrolStop => exact .codeRemap (outsideGeometryFault_remap fun s => by simp) _ s
  case patrolStatus => exact .codeRemap (outsideGeometryFault_remap fun s => by simp) _ s
  case setGrantLimit => exact .codeRemap (outsideGeometryFault_remap fun s => by simp) _ s
  case fenceLock => exact .codeRemap (fun s => by simp) _ s
  case fenceUnlock maintEn => exact .codeRemap (fun s => by simp) _ s
  case fenceFreeze => exact .codeRemap (fun s => by simp) _ s
  case cancel => exact execCancel_within s
  case unknownCommand code =>
    exact .next (.ite (.refl s) (takeCommand_within (fun s => .of_remap (by simp)) code s))
  case grantWaitExpiry => exact .within (.ite (.of_remap (by simp)) (.refl s))
  case settleTimerExpiry => exact .within (.ite (.of_remap (by simp)) (.refl s))
  case commandWriteWhileBusy code => exact .within (.ite (.of_remap (by simp)) (.refl s))
  case waitingWritePlace => exact .within (f := fun s => settle (placeWaiting s)) (.of_remap (by simp))
  -- the meaning of every other command leaves the Remap Unit alone
  all_goals
    refine .within (.of_remap ?_)
    simp

/-! #### The pool over a step -/

/-- The command at the front of the queue stands in the state it is run on only as the rest of the queue. -/
theorem step_cons {s : State} {c : Instr} {rest : List Instr} (front : s.pending = c :: rest) :
    step s = exec c { s with pending := rest } := by
  rw [step, front]

theorem step_nil {s : State} (empty : s.pending = []) : step s = .next (tick s) := by
  rw [step, empty]

theorem imageLoaded_remap (s : State) : (imageLoaded s).remap = { s.remap with loaded := true } := by
  unfold imageLoaded
  dsimp only
  split_ifs <;> simp

/-- What the read of image line k makes of the Remap Unit, but for the mark that the image is loaded. -/
def imageTaken (k : Nat) (ecc : Ecc) (records : List RawRecord) (s : State) : State :=
  if ecc = .uncorrectable then damagedImage k (freePort s) else takeRecords k records (freePort s)

theorem imageReadDone_eq {s : State} {k : Nat} (load : loadInFlight s = some (.image k)) (ecc : Ecc)
    (records : List RawRecord) :
    imageReadDone ecc records s
      = if k < 1023 then placeLoad (.image (k + 1)) (imageTaken k ecc records s)
        else imageLoaded (imageTaken k ecc records s) := by
  unfold imageReadDone
  rw [load]
  rfl

theorem imageReadDone_other {s : State} (load : ∀ k, loadInFlight s ≠ some (.image k)) (ecc : Ecc)
    (records : List RawRecord) : imageReadDone ecc records s = s := by
  unfold imageReadDone
  split
  · next k h => exact absurd h (load k)
  · rfl

/-- The pool and the requests, whether or not the image counts as loaded. -/
def SamePool (s t : State) : Prop :=
  t.remap.table = s.remap.table ∧ t.remap.dead = s.remap.dead ∧ SameRequests s t

theorem SamePool.of_remap {s t : State} (same : t.remap = s.remap) : SamePool s t :=
  ⟨by rw [same], by rw [same], .of_remap same⟩

theorem imageReadDone_samePool {s : State} {k : Nat} (load : loadInFlight s = some (.image k)) (ecc : Ecc)
    (records : List RawRecord) : SamePool (imageTaken k ecc records s) (imageReadDone ecc records s) := by
  unfold SamePool SameRequests
  rw [imageReadDone_eq load]
  split
  · simp
  · rw [imageLoaded_remap]
    exact ⟨rfl, rfl, rfl, rfl, rfl⟩

/-- A property of the pool that every slot taken carries one slot further. -/
theorem imageTaken_induction {P : Nat → State → Prop} (mono : ∀ n s, P n s → P (n + 1) s) {k : Nat}
    (take : ∀ n r s, n < 4 * (k + 1) → P n s → P (n + 1) (takeRecord n r s))
    (congr : ∀ n s t, SamePool s t → P n s → P n t) (ecc : Ecc) (records : List RawRecord) {s : State}
    (start : P (4 * k) s) : P (4 * (k + 1)) (imageTaken k ecc records s) := by
  have freed : P (4 * k) (freePort s) := congr _ _ _ (.of_remap (by simp)) start
  unfold imageTaken
  split
  · exact congr _ _ _ (.of_remap (damagedImage_remap k _)) (damagedSlots_induction take freed)
  · exact takeRecords_induction mono take records freed

theorem Below.congr {n : Nat} {s t : State} (same : SamePool s t) (h : Below n s) : Below n t :=
  h.within (.of_same same.1 same.2.1)

theorem TakenBelow.congr {n : Nat} {s t : State} (same : SamePool s t) (h : TakenBelow n s) : TakenBelow n t := by
  obtain ⟨table, dead, -, serving, -⟩ := id same
  refine ⟨h.below.congr same, ?_, table ▸ h.rising, serving.trans h.serving⟩
  rw [tableSlots, table, dead]
  exact h.slots

/-- The read of image line k leaves the slots from 4k + 4 up untouched (R160, R161). -/
theorem imageReadDone_below {s : State} {k : Nat} (load : loadInFlight s = some (.image k)) (ecc : Ecc)
    (records : List RawRecord) (below : Below (4 * k) s) : Below (4 * (k + 1)) (imageReadDone ecc records s) :=
  .congr (imageReadDone_samePool load ecc records)
    (imageTaken_induction (fun n _ h => h.mono (Nat.le_succ n)) (fun _ r _ _ h => takeRecord_below r h)
      (fun _ _ _ same h => h.congr same) ecc records below)

theorem imageReadDone_takenBelow {s : State} {k : Nat} (exist : k < 1024) (load : loadInFlight s = some (.image k))
    (ecc : Ecc) (records : List RawRecord) (taken : TakenBelow (4 * k) s) :
    TakenBelow (4 * (k + 1)) (imageReadDone ecc records s) :=
  .congr (imageReadDone_samePool load ecc records)
    (imageTaken_induction (fun n _ h => h.mono (Nat.le_succ n))
      (fun _ r _ below h => h.takeRecord r (by omega)) (fun _ _ _ same h => h.congr same) ecc records taken)

/-- The pool stays a partition over every command, if it does over the read of an image line. -/
theorem exec_pool {c : Instr} {s t : State} (next : exec c s = .next t) (sparse : sparseOk s = true)
    (pool : poolOk s = true)
    (image : ∀ ecc records, c = .imageReadComplete ecc records → poolOk (imageReadDone ecc records s) = true) :
    poolOk t = true := by
  have porst {c : Instr} (h : c = .porstAssert ∨ ∃ g, c = .porstRelease g) (next : exec c s = .next t) :
      poolOk t = true := by
    rcases exec_porst h s with same | ⟨p, u, phase, work, power⟩
    · cases same.symm.trans next
      exact pool
    · cases power.symm.trans next
      obtain ⟨_, _, _, _, _, _, power, _⟩ := powerOn_ok p u phase work s.pending
      exact power
  have part {f : State → State} (kept : poolOk (f s) = true) (next : onPart f s = .next t) : poolOk t = true := by
    cases next
    split
    · exact pool
    · exact kept
  by_cases keeps : keepsAll c = true
  · exact (exec_keptAll keeps s t next).pool sparse pool
  cases c
  case porstAssert => exact porst (.inl rfl) next
  case porstRelease g => exact porst (.inr ⟨g, rfl⟩) next
  case incidentPop v => exact part (f := popIncident) pool next
  case registerWrite index v =>
    refine part (f := writeRegister index v) ?_ next
    unfold writeRegister
    split
    · exact pool
    · exact pool
  case imageReadComplete ecc records => exact part (image ecc records rfl) next
  all_goals exact absurd rfl keeps

theorem headerDone_other {s : State} {k : Nat} (load : loadInFlight s = some (.image k)) (ecc : Ecc) (h : HeaderImage) :
    headerDone ecc h s = s := by
  simp [headerDone, load]

theorem settingsReadDone_other {s : State} {k : Nat} (load : loadInFlight s = some (.image k)) (ecc : Ecc)
    (classes : List RawClass) (regions : List RegionEntry) : settingsReadDone ecc classes regions s = s := by
  simp [settingsReadDone, load]

/-- What the read of image line k does not take stays untouched over every command while that read is in flight. -/
theorem exec_below_of_image {c : Instr} {s : State} {k : Nat} (load : loadInFlight s = some (.image k)) {t : State}
    (next : exec c s = .next t) (below : Below (4 * k) s) : Below (4 * (k + 1)) t := by
  have wide : Below (4 * (k + 1)) s := below.mono (by omega)
  by_cases other : completesLoad c = false
  · exact wide.within (exec_within other (loadOnly_of_loadInFlight load) t next)
  cases c
  case headerReadComplete ecc h => exact wide.within (Leads.noop (.refl s) (headerDone_other load ecc h) t next)
  case settingsReadComplete ecc classes regions =>
    exact wide.within (Leads.noop (.refl s) (settingsReadDone_other load ecc classes regions) t next)
  case imageReadComplete ecc records =>
    cases next
    split
    · exact wide
    · exact imageReadDone_below load ecc records below
  all_goals exact absurd rfl other

end Sys2Proof.Machine
end

section
namespace Sys2Proof.Machine

/-! ### LOADING over a step (R159 to R162) -/

/-- LOADING goes on with the same line, and the Remap Unit stays as it was. -/
def LoadKept (s t : State) : Prop := ∀ l, Loading l s → Loading l t ∧ t.remap = s.remap

theorem LoadKept.refl (s : State) : LoadKept s s := fun _ h => ⟨h, rfl⟩

theorem LoadKept.trans {s t u : State} (h : LoadKept s t) (k : LoadKept t u) : LoadKept s u := by
  intro l loading
  obtain ⟨mid, same⟩ := h l loading
  obtain ⟨last, same'⟩ := k l mid
  exact ⟨last, same'.trans same⟩

/-- `trans` in the order of an expression: the outer operation first. -/
theorem LoadKept.after {s t u : State} (k : LoadKept t u) (h : LoadKept s t) : LoadKept s u := h.trans k

theorem LoadKept.ite {c : Prop} [Decidable c] {s t u : State} (ht : LoadKept s t) (hu : LoadKept s u) :
    LoadKept s (if c then t else u) := by
  split
  · exact ht
  · exact hu

theorem LoadKept.foldl {α : Type} {f : State → α → State} (step : ∀ t a, LoadKept t (f t a)) (l : List α)
    (s : State) : LoadKept s (l.foldl f s) := by
  induction l generalizing s with
  | nil => exact .refl s
  | cons a l ih => exact (step s a).trans (ih (f s a))

/-- The metadata line exists (R155). -/
def LineExists : MetaLine → Prop
  | .image k => k < 1024
  | .settings j => j < 6

theorem Loading.lineExists {l : MetaLine} {s : State} (h : Loading l s) : LineExists l := by
  cases l <;> exact h.line

/-- LOADING with the read of another line, or with the same one elsewhere in the link. -/
theorem Loading.become {l l' : MetaLine} {s t : State} (h : Loading l s) (porst : t.pins.porst = s.pins.porst)
    (phase : t.metaCtl.phase = s.metaCtl.phase)
    (ops : (t.link.work ++ t.link.inFlight.toList).map (·.purpose) = [.loadRead l'])
    (claims : t.link.claims = s.link.claims) (throughs : t.path.throughs = s.path.throughs) (same : SameRequests s t)
    (line : LineExists l') : Loading l' t where
  porst := porst.trans h.porst
  phase := phase.trans h.phase
  ops := ops
  line := by cases l' <;> exact line
  claims := claims.trans h.claims
  throughs := throughs.trans h.throughs
  workList := same.1.trans h.workList
  serving := same.2.1.trans h.serving
  noData := same.2.2.trans h.noData

/-- What LOADING reads stays the same. -/
theorem LoadKept.of_same {s t : State} (porst : t.pins.porst = s.pins.porst) (phase : t.metaCtl.phase = s.metaCtl.phase)
    (work : t.link.work = s.link.work) (inFlight : t.link.inFlight = s.link.inFlight)
    (claims : t.link.claims = s.link.claims) (throughs : t.path.throughs = s.path.throughs)
      (remap : t.remap = s.remap) :
    LoadKept s t := by
  intro l h
  have ops : (t.link.work ++ t.link.inFlight.toList).map (·.purpose) = [.loadRead l] := by
    rw [work, inFlight]
    exact h.ops
  exact ⟨h.become porst phase ops claims throughs (.of_remap remap) h.lineExists, remap⟩

/-- A change of other blocks. -/
theorem LoadKept.of_blocks {s t : State}
    (frame : t.pins = s.pins ∧ t.path = s.path ∧ t.link = s.link ∧ t.remap = s.remap ∧ t.metaCtl = s.metaCtl) :
    LoadKept s t := by
  obtain ⟨pins, path, link, remap, metaCtl⟩ := frame
  exact .of_same (by rw [pins]) (by rw [metaCtl]) (by rw [link]) (by rw [link]) (by rw [link]) (by rw [path]) remap

/-- What holds by the phase and the empty lists of LOADING. -/
theorem LoadKept.of_eq {s t : State} (same : ∀ l, Loading l s → t = s) : LoadKept s t :=
  fun l h => (same l h).symm ▸ ⟨h, rfl⟩

/-- The one operation is pending or in flight. -/
theorem Loading.op {l : MetaLine} {s : State} (h : Loading l s) :
    (∃ o, s.link.work = [o] ∧ s.link.inFlight = none ∧ o.purpose = .loadRead l)
      ∨ ∃ o, s.link.work = [] ∧ s.link.inFlight = some o ∧ o.purpose = .loadRead l := by
  have ops := h.ops
  cases flight : s.link.inFlight with
  | none =>
    obtain ⟨o, work, purpose⟩ := List.map_eq_singleton_iff.1 (by simpa [flight] using ops)
    exact .inl ⟨o, work, rfl, purpose⟩
  | some o =>
    rw [flight, Option.toList_some, List.map_append] at ops
    obtain ⟨work, purpose⟩ | ⟨_, none⟩ := List.append_eq_singleton_iff.1 ops
    · exact .inr ⟨o, List.map_eq_nil_iff.1 work, rfl, by simpa using purpose⟩
    · cases none

theorem Loading.loadOnly {l : MetaLine} {s : State} (h : Loading l s) : LoadOnly s := by
  intro o flight
  rcases h.op with ⟨_, _, none, _⟩ | ⟨x, _, some, purpose⟩
  · cases none.symm.trans flight
  · cases some.symm.trans flight
    exact ⟨l, purpose⟩

theorem Loading.pendingPurpose {l : MetaLine} {s : State} (h : Loading l s) : ∀ o ∈ s.link.work,
    o.purpose = .loadRead l := by
  intro o ho
  rcases h.op with ⟨x, work, _, purpose⟩ | ⟨_, work, _⟩
  · rw [work, List.mem_singleton] at ho
    exact ho ▸ purpose
  · rw [work] at ho
    cases ho

/-! #### What works on the line path, the link and the claims -/

theorem removeWork_loadKept {gone : ArrayOp → Bool} (foreign : ∀ o l, o.purpose = .loadRead l → gone o = false)
    (s : State) : LoadKept s (removeWork gone s) := by
  refine .of_eq fun l h => ?_
  have work : s.link.work.filter (fun o => !gone o) = s.link.work := by
    refine List.filter_eq_self.2 fun o ho => ?_
    rw [foreign o l (h.pendingPurpose o ho)]
    rfl
  unfold removeWork
  rw [work]

/-- With no claim in the table there is none to leave it (R92). -/
theorem dropClaim_none {s : State} (none : s.link.claims = []) (line : Nat) (o : Claimant) :
    dropClaim line o s = s := by
  have empty : claimRecord s line = { holders := .shared [], waiting := [] } := by
    rw [claimRecord, none]
    rfl
  unfold dropClaim
  rw [empty]
  change { s with link := { s.link with claims := sparseDel s.link.claims line } } = s
  rw [none]
  change { s with link := { s.link with claims := [] } } = s
  rw [← none]

theorem dropClaim_loadKept (line : Nat) (o : Claimant) (s : State) : LoadKept s (dropClaim line o s) :=
  .of_eq fun _ h => dropClaim_none h.claims line o

theorem setStand_throughs (p : Port) (serial : Nat) (st : Stand) (s : State) :
    (setStand p serial st s).path.throughs = s.path.throughs := by
  cases p <;> rfl

theorem answer_loadKept (p : Port) (serial : Nat) (r : Response) (s : State) : LoadKept s (answer p serial r s) :=
  .of_same (by simp) (by simp) (by simp) (by simp) (by simp) (setStand_throughs _ _ _ s) (by simp)

theorem refuseRead_loadKept (r : SystemRead) (code : ResponseCode) (s : State) : LoadKept s (refuseRead r code s) :=
  .ite (answer_loadKept _ _ _ s) (.refl s)

theorem withdrawRead_loadKept (r : SystemRead) (s : State) : LoadKept s (withdrawRead r s) := by
  have removed : LoadKept s (removeWork (fun o => decide (o.purpose = .systemRead r.serial)) s) :=
    removeWork_loadKept (fun o l purpose => by simp [purpose]) s
  refine .after (dropClaim_loadKept _ _ _) (.after ?_ removed)
  exact .of_same rfl rfl rfl rfl rfl rfl rfl

theorem srstRead_loadKept (r : SystemRead) (s : State) : LoadKept s (srstRead r s) :=
  .ite (.of_same rfl rfl rfl rfl rfl rfl rfl) (withdrawRead_loadKept r s)

/-- LOADING has no through-write. -/
theorem throughs_loadKept (f : State → ThroughWrite → State) (s : State) : LoadKept s (s.path.throughs.foldl f s) :=
  .of_eq fun _ h => by rw [h.throughs]; rfl

theorem answerWaiting_loadKept (code : ResponseCode) (s : State) : LoadKept s (answerWaiting code s) := by
  have emptied (t : State) : LoadKept t { t with buffer := { t.buffer with waiting := [] } } :=
    .of_same rfl rfl rfl rfl rfl rfl rfl
  exact (emptied _).after (.foldl (fun t (w : WaitingWrite) => answer_loadKept w.port w.serial _ t) _ s)

theorem settle_loadKept (s : State) : LoadKept s (settle s) := by
  have idle : LoadKept s (follow s) := .of_eq fun _ h => by simp [follow, h.phase]
  refine idle.trans ?_
  unfold settle
  rw [stopGrantTimer_eq]
  exact .of_same rfl rfl rfl rfl rfl rfl rfl

theorem expire_loadKept (s : State) : LoadKept s (expire s) := by
  have reads (s : State) (l : List SystemRead) :
      LoadKept s (l.foldl (fun t r => withdrawRead r (refuseRead r .unavailable t)) s) :=
    .foldl (fun t r => (withdrawRead_loadKept r _).after (refuseRead_loadKept r _ t)) l s
  have noted : LoadKept s (post .unavailable { s with link := { s.link with unavailable := true, waitTicks := 0 } }) :=
    .of_same rfl rfl rfl rfl rfl rfl rfl
  exact (answerWaiting_loadKept _ _).after ((throughs_loadKept _ _).after ((reads _ _).after noted))

theorem systemReset_loadKept (s : State) : LoadKept s (systemReset s) := by
  have reads (s : State) (l : List SystemRead) : LoadKept s (l.foldl (fun t r => srstRead r t) s) :=
    .foldl (fun t r => srstRead_loadKept r t) l s
  have emptied (s : State) : LoadKept s
      { s with
        path := { s.path with queueA := [], queueB := [], drainWait := false }
        buffer := { s.buffer with waiting := [] } } := .of_same rfl rfl rfl rfl rfl rfl rfl
  have returned (s : State) : LoadKept s (srstReturn s) :=
    .ite (.refl s) (.of_same rfl rfl rfl rfl rfl rfl rfl)
  have watches (s : State) : LoadKept s (srstWatches s) := .of_same rfl rfl rfl rfl rfl rfl rfl
  exact (settle_loadKept _).after ((watches _).after ((returned _).after
    ((emptied _).after ((throughs_loadKept _ _).after (reads _ _)))))

theorem powerWarning_loadKept (s : State) : LoadKept s (powerWarning s) :=
  (settle_loadKept _).after ((answerWaiting_loadKept _ _).after (throughs_loadKept _ s))

theorem takeTransaction_loadKept (p : Port) (tx : Transaction) (s : State) : LoadKept s (takeTransaction p tx s) := by
  unfold takeTransaction
  split
  · exact .refl s
  · cases p <;> exact .of_same rfl rfl rfl rfl rfl rfl rfl

/-- Outside service the first check refuses (R9, R10). -/
theorem runIntake_loadKept (p : Port) (s : State) : LoadKept s (runIntake p s) := by
  intro l h
  have early : serviceState s ≠ .inService := by
    unfold serviceState
    rw [h.phase]
    split_ifs <;> simp
  revert h
  refine (?_ : LoadKept s (runIntake p s)) l
  unfold runIntake
  split
  · exact .refl s
  · refine .ite ?_ (.refl s)
    unfold checkTransaction
    rw [if_pos early]
    exact answer_loadKept _ _ _ s

theorem sendResponses_loadKept (p : Port) (s : State) : LoadKept s (sendResponses p s) := by
  unfold sendResponses
  split
  · exact .refl s
  · cases p <;> exact .of_same rfl rfl rfl rfl rfl rfl rfl

theorem retryWaiting_loadKept (w : WaitingWrite) (s : State) : LoadKept s (retryWaiting w s) := by
  unfold retryWaiting
  split
  · exact .refl s
  · next placed =>
    obtain ⟨pins, path, _, _, link, remap, _, _, metaCtl, _⟩ := placePosted_frame _ _ _ _ _ placed
    exact (answer_loadKept _ _ _ _).after (.of_same (by simp [pins]) (by simp [metaCtl]) (by simp [link])
      (by simp [link])
      (by simp [link]) (by simp [path]) remap)

theorem placeWaiting_loadKept (s : State) : LoadKept s (placeWaiting s) :=
  .foldl (fun t w => retryWaiting_loadKept w t) _ s

/-! #### Issuing and withdrawing the one operation (R85, R97) -/

/-- The scheduler chooses among the pending operations. -/
theorem choose_mem {s : State} {o : ArrayOp} (h : choose s = some o) : o ∈ s.link.work := by
  obtain ⟨k, -, found⟩ := List.exists_of_findSome?_eq_some h
  have ops {x : ArrayOp} {q : ArrayOp → Bool} (h : x ∈ s.link.work.filter q) : x ∈ s.link.work :=
      List.mem_of_mem_filter h
  unfold firstOfKind at found
  dsimp only at found
  split at found
  · rcases Option.or_eq_some_iff.1 found with found | ⟨_, found⟩
    · rcases Option.or_eq_some_iff.1 found with found | ⟨_, found⟩
      · exact ops (List.mem_of_find?_eq_some found)
      · obtain ⟨t, -, found⟩ := List.exists_of_findSome?_eq_some found
        exact ops (List.mem_of_find?_eq_some found)
    · exact ops (List.mem_of_head? found)
  · exact ops (List.mem_of_head? found)

theorem issueNext_loadKept (s : State) : LoadKept s (issueNext s) := by
  intro l h
  unfold issueNext
  split
  · exact ⟨h, rfl⟩
  · split
    · exact ⟨h, rfl⟩
    · next o chosen =>
      have pending := choose_mem chosen
      have purpose := h.pendingPurpose o pending
      have issued := (atIssue_keeps s o).1.trans purpose
      obtain ⟨x, work, -, -⟩ | ⟨_, work, _⟩ := h.op
      · rw [work, List.mem_singleton] at pending
        subst pending
        have next : issueOp o s = { s with link := { s.link with work := [], inFlight := some (atIssue s o) } } := by
          simp [issueOp, purpose, Purpose.writer, work]
        rw [next]
        exact ⟨h.become rfl rfl (by simp [issued]) rfl rfl (.of_remap rfl) h.lineExists, rfl⟩
      · rw [work] at pending
        cases pending

theorem grantFalls_loadKept (s : State) : LoadKept s (grantFalls s) := by
  intro l h
  unfold grantFalls
  split
  · next o flight =>
    obtain ⟨_, _, none, _⟩ | ⟨x, work, some, purpose⟩ := h.op
    · cases none.symm.trans flight
    · cases some.symm.trans flight
      exact ⟨h.become (by simp) (by simp) (by simp [work, purpose]) (by simp) (by simp) (.of_remap (by simp))
        h.lineExists,
        by simp⟩
  · exact ⟨h, rfl⟩

theorem grantReturns_loadKept (s : State) : LoadKept s (grantReturns s) := by
  unfold grantReturns
  exact .ite (.of_same rfl rfl rfl rfl rfl rfl rfl) (.of_same rfl rfl rfl rfl rfl rfl rfl)

/-! #### The commands -/

theorem Leads.load {f : State → State} {s : State} (kept : LoadKept s (f s)) :
    Leads LoadKept (Sys2Proof.Machine.onPart f s) s := .next (.ite (.refl s) kept)

theorem Leads.loadEdge {f : State → State} (kept : ∀ s, LoadKept s (f s)) {p : Pins} {s : State}
    (porst : p.porst = s.pins.porst) : Leads LoadKept (Sys2Proof.Machine.onPart f { s with pins := p }) s :=
  .next (.after (.ite (.refl _) (kept _)) (.of_same porst rfl rfl rfl rfl rfl rfl))

theorem completeWith_loadKept (r : ResultCode) (data : List Word) (s : State) : LoadKept s (completeWith r data s) :=
  .of_same (by simp) (by simp) (by simp) (by simp) (by simp) (by simp) (by simp)

theorem complete_loadKept (r : ResultCode) (s : State) : LoadKept s (complete r s) := completeWith_loadKept r [] s

/-- A command code is taken, by a meaning that LOADING allows to be carried out. -/
theorem Leads.loadCode {carry : State → State} (kept : ∀ s, LoadKept s (carry s)) (code : BitVec 8) (s : State) :
    Leads LoadKept (.next (Sys2Proof.Machine.takeCommand code carry s)) s := by
  refine .next (.ite (.refl s) (.ite (.of_same rfl rfl rfl rfl rfl rfl rfl) ((kept _).after ?_)))
  exact .of_same rfl rfl rfl rfl rfl rfl rfl

theorem outsideGeometryFault_loadKept {carry : State → State} (kept : ∀ s, LoadKept s (carry s)) (s : State) :
    LoadKept s (outsideGeometryFault carry s) := .ite (complete_loadKept _ s) (kept s)

theorem underLock_loadKept (carry : State → State) (s : State) : LoadKept s (underLock carry s) := by
  intro l h
  rw [underLock, if_pos (by rw [h.phase]; rfl)]
  exact complete_loadKept _ s l h

theorem inService_loadKept (carry : State → State) (s : State) : LoadKept s (inService carry s) := by
  intro l h
  rw [inService, if_pos (by rw [h.phase]; rfl)]
  exact complete_loadKept _ s l h

/-- LOADING makes the lock commands NOT_READY (R31, R32). -/
theorem lockNotReady_loading {l : MetaLine} {s : State} (h : Loading l s) : lockNotReady s = true := by
  simp [lockNotReady, h.phase]

theorem fenceLock_loadKept (s : State) : LoadKept s (fenceLock s) := by
  intro l h
  rw [fenceLock, if_pos (lockNotReady_loading h)]
  exact complete_loadKept _ s l h

theorem fenceUnlock_loadKept (s : State) : LoadKept s (fenceUnlock s) := by
  intro l h
  rw [fenceUnlock, if_pos (lockNotReady_loading h)]
  exact complete_loadKept _ s l h

theorem fenceFreeze_loadKept (s : State) : LoadKept s (fenceFreeze s) := by
  intro l h
  rw [fenceFreeze, h.phase]
  exact complete_loadKept _ s l h

theorem retireJudged_loadKept (s : State) : LoadKept s (retireJudged s) := by
  intro l h
  rw [retireJudged, if_pos (by simp [h.phase])]
  exact complete_loadKept _ s l h

theorem formatArray_loadKept (s : State) : LoadKept s (formatArray s) := by
  intro l h
  rw [formatArray, if_pos (by simp [h.phase])]
  exact complete_loadKept _ s l h

theorem setGrantLimit_loadKept (s : State) : LoadKept s (setGrantLimit s) := by
  have set : LoadKept s (complete .done { s with link := { s.link with limit := paramNat s 0 } }) :=
    (complete_loadKept _ _).after (.of_same rfl rfl rfl rfl rfl rfl rfl)
  exact .ite (complete_loadKept _ s) (.ite ((settle_loadKept _).after ((expire_loadKept _).after set)) set)

theorem cancelBusy_loadKept (b : InProgress) (s : State) : LoadKept s (cancelBusy b s) :=
  .of_same (by simp) (by simp) (by simp) (by simp) (by simp) (by simp) (by simp)

theorem execCancel_load (s : State) : Leads LoadKept (execCancel s) s := by
  unfold execCancel
  split
  · exact .load (cancelBusy_loadKept _ s)
  · exact .loadCode (outsideGeometryFault_loadKept (complete_loadKept _)) _ s

theorem patrolExpiry_loadKept (s : State) : LoadKept s (patrolExpiry s) := by
  intro l h
  have ticks : LoadKept s (setPatrol (fun p => { p with ticks := 0 }) s) := .of_same rfl rfl rfl rfl rfl rfl rfl
  unfold patrolExpiry
  dsimp only
  split
  · exact ⟨h, rfl⟩
  · rw [if_neg (by simp [h.phase])]
    exact ticks l h

theorem selectDrain_loading {l : MetaLine} {s : State} (h : Loading l s) : selectDrain s = s := by
  simp [selectDrain, h.phase, Phase.drains]

theorem settleClaims_loading {l : MetaLine} {s : State} (h : Loading l s) (line : Nat) : settleClaims line s = s := by
  have empty : (claimRecord s line).waiting = [] := by
    rw [claimRecord, h.claims]
    rfl
  rw [settleClaims, empty]
  rfl

theorem startJob_loading {l : MetaLine} {s : State} (h : Loading l s) : startJob s = s := by
  have idle : jobsMayStart s = false := by simp [jobsMayStart, h.phase]
  cases queue : s.health.queue <;> simp [startJob, queue, idle]

theorem unservedHead_loading {l : MetaLine} {s : State} (h : Loading l s) : unservedHead s = none := by
  simp [unservedHead, h.workList]

theorem requestThrough_loading {l : MetaLine} {s : State} (h : Loading l s) (p : Port) : requestThrough p s = s := by
  simp [requestThrough, waitingThrough, h.throughs]

theorem exec_loadKept {c : Instr} (other : completesLoad c = false) (assert : c ≠ .porstAssert) (s : State) :
    Leads LoadKept (exec c s) s := by
  -- a meaning that is over before it begins, by what LOADING says of the state
  have idle {f : State → State} (same : ∀ l, Loading l s → f s = s) : Leads LoadKept (onPart f s) s :=
    .load (.of_eq same)
  have settled {f : State → State} (same : ∀ l, Loading l s → f s = s) :
      Leads LoadKept (onPart (fun s => settle (f s)) s) s :=
    .load ((settle_loadKept _).after (.of_eq same))
  cases c
  case headerReadComplete => cases other
  case imageReadComplete => cases other
  case settingsReadComplete => cases other
  case porstAssert => exact absurd rfl assert
  case porstRelease g => exact .next (.of_eq fun l h => by simp [h.porst])
  -- the pins
  case srstAssert => exact .ite (.next (.refl s)) (.loadEdge systemReset_loadKept rfl)
  case srstRelease =>
    exact .ite (.loadEdge (f := openDrainWait) (fun s => .of_same rfl rfl rfl rfl rfl rfl rfl) rfl) (.next (.refl s))
  case pwarnAssert => exact .ite (.next (.refl s)) (.loadEdge powerWarning_loadKept rfl)
  case pwarnRelease => exact .next (.of_same rfl rfl rfl rfl rfl rfl rfl)
  case agntAssert => exact .ite (.next (.refl s)) (.loadEdge grantReturns_loadKept rfl)
  case agntWithdraw => exact .ite (.loadEdge grantFalls_loadKept rfl) (.next (.refl s))
  -- the ports
  case transactionTake p tx => exact .load (takeTransaction_loadKept p tx s)
  case intake p => exact .load (runIntake_loadKept p s)
  case responseSend p => exact .load (sendResponses_loadKept p s)
  case waitingWritePlace =>
    exact .load (f := fun s => settle (placeWaiting s)) ((settle_loadKept _).after (placeWaiting_loadKept s))
  case throughWriteClaimRequest p => exact idle fun _ h => requestThrough_loading h p
  -- the timers
  case grantWaitExpiry => exact .load (.ite ((settle_loadKept _).after (expire_loadKept s)) (.refl s))
  case settleTimerExpiry => exact idle fun _ h => if_neg (by simp [h.phase])
  case patrolTimerExpiry => exact .load (patrolExpiry_loadKept s)
  -- the array link: one operation, which is no other's completion
  case arrayIssue => exact .load (issueNext_loadKept s)
  case systemReadComplete ecc data => exact settled fun _ h => h.loadOnly.readDone ecc data
  case mergeReadComplete ecc data => exact idle fun _ h => h.loadOnly.mergeDone ecc data
  case drainProgramComplete ok => exact idle fun _ h => h.loadOnly.programDone ok
  case verifyReadComplete ecc => exact idle fun _ h => h.loadOnly.verifyDone ecc
  case spareProgramComplete ok => exact idle fun _ h => h.loadOnly.spareProgramDone ok
  case imageProgramComplete ok => exact idle fun _ h => h.loadOnly.metaDone _ ok
  case settingsProgramComplete ok => exact idle fun _ h => h.loadOnly.metaDone _ ok
  case repairProgramComplete ok => exact idle fun _ h => h.loadOnly.metaDone _ ok
  case formatProgramComplete ok => exact idle fun _ h => h.loadOnly.formatDone ok
  case relocationSourceReadComplete ecc data => exact idle fun _ h => h.loadOnly.sourceDone ecc data
  case patrolReadComplete ecc => exact idle fun _ h => h.loadOnly.patrolDone ecc
  -- the part's own steps: nothing to serve
  case drainSelect => exact idle fun _ h => selectDrain_loading h
  case claimGrant line => exact settled fun _ h => settleClaims_loading h line
  case relocationJobStart => exact idle fun _ h => startJob_loading h
  case reassignServe => exact settled fun _ h => by simp [serveReassign, unservedHead_loading h]
  case mergeFailStorageServe => exact idle fun _ h => by simp [serveMergeFail, unservedHead_loading h]
  case dataStateRecordingServe => exact idle fun _ h => by simp [serveRecording, unservedHead_loading h]
  case noDataClaimRequest => exact idle fun _ h => by simp [askNoData, h.noData]
  -- the command codes
  case setFence => exact .loadCode (underLock_loadKept _) _ s
  case loadRegion => exact .loadCode (underLock_loadKept _) _ s
  case loadClass => exact .loadCode (underLock_loadKept _) _ s
  case saveSettings => exact .loadCode (underLock_loadKept _) _ s
  case readRemap => exact .loadCode (inService_loadKept _) _ s
  case readSlot => exact .loadCode (inService_loadKept _) _ s
  case patrolStart => exact .loadCode (inService_loadKept _) _ s
  case fenceLock => exact .loadCode fenceLock_loadKept _ s
  case fenceUnlock maintEn =>
    exact .loadCode (fun s => (fenceUnlock_loadKept { s with pins := { s.pins with maintEn := maintEn } }).after
      (.of_same rfl rfl rfl rfl rfl rfl rfl)) _ s
  case fenceFreeze => exact .loadCode fenceFreeze_loadKept _ s
  case retireLine => exact .loadCode retireJudged_loadKept _ s
  case formatArray => exact .loadCode formatArray_loadKept _ s
  case setGrantLimit => exact .loadCode (outsideGeometryFault_loadKept setGrantLimit_loadKept) _ s
  case cancel => exact execCancel_load s
  case unknownCommand code =>
    refine .next (.ite (.refl s) (Leads.loadCode (complete_loadKept _) code s _ rfl))
  case readLimits => exact .loadCode (outsideGeometryFault_loadKept fun s => completeWith_loadKept _ _ s) _ s
  case loadRange => exact .loadCode (outsideGeometryFault_loadKept fun s => .of_blocks (by simp)) _ s
  case loadTarget => exact .loadCode (outsideGeometryFault_loadKept fun s => .of_blocks (by simp)) _ s
  case sequenceSet => exact .loadCode (outsideGeometryFault_loadKept fun s => .of_blocks (by simp)) _ s
  case sequenceArm => exact .loadCode (outsideGeometryFault_loadKept fun s => .of_blocks (by simp)) _ s
  case sequenceDisarm => exact .loadCode (outsideGeometryFault_loadKept fun s => .of_blocks (by simp)) _ s
  case drainAll => exact .loadCode (outsideGeometryFault_loadKept fun s => .of_blocks (by simp)) _ s
  case setReserve => exact .loadCode (outsideGeometryFault_loadKept fun s => .of_blocks (by simp)) _ s
  case readCandidate => exact .loadCode (outsideGeometryFault_loadKept fun s => .of_blocks (by simp)) _ s
  case patrolStop => exact .loadCode (outsideGeometryFault_loadKept fun s => .of_blocks (by simp)) _ s
  case patrolStatus => exact .loadCode (outsideGeometryFault_loadKept fun s => .of_blocks (by simp)) _ s
  case commandWriteWhileBusy code => exact .load (.ite (.of_blocks (by simp)) (.refl s))
  case resetDrainWaitClose => exact .load (.ite (.of_same rfl rfl rfl rfl rfl rfl rfl) (.refl s))
  -- the register window and the closing waits
  all_goals
    refine .load (.of_blocks ?_)
    simp

/-! #### The completions of the loading reads -/

/-- A loading read that completes is that of the line. -/
theorem Loading.loadInFlight {l l' : MetaLine} {s : State} (h : Loading l s) (flight : loadInFlight s = some l') :
    l' = l ∧ s.link.work = [] := by
  unfold Sys2Proof.Machine.loadInFlight inFlightFor at flight
  rcases h.op with ⟨o, _, none, _⟩ | ⟨o, work, some, purpose⟩
  · rw [none] at flight
    cases flight
  · rw [some] at flight
    dsimp only at flight
    rw [purpose] at flight
    exact ⟨(Option.some.inj flight).symm, work⟩

/-- The read of another line is placed at the completion of the one in flight. -/
theorem Loading.placed {l l' : MetaLine} {s t : State} (h : Loading l s)
    (flight : Sys2Proof.Machine.loadInFlight s = some l)
    (porst : t.pins.porst = s.pins.porst) (phase : t.metaCtl.phase = s.metaCtl.phase)
    (link : t.link = (freePort s).link) (throughs : t.path.throughs = s.path.throughs) (same : SameRequests s t)
    (line : LineExists l') : Loading l' (placeLoad l' t) := by
  have work := (h.loadInFlight flight).2
  refine h.become porst phase ?_ ?_ throughs same line
  · simp [placeLoad, placeOp, link, freePort, work]
  · simp [placeLoad, placeOp, link, freePort]

theorem addRepair_phase (t : MetaLine) (s : State) : (addRepair t s).metaCtl.phase = s.metaCtl.phase := by
  unfold addRepair
  split <;> rfl

theorem takeRecord_phase (slot : Nat) (r : RawRecord) (s : State) :
    (takeRecord slot r s).metaCtl.phase = s.metaCtl.phase := by
  have damaged (slot : Nat) (s : State) : (damageSlot slot s).metaCtl.phase = s.metaCtl.phase := addRepair_phase _ _
  unfold takeRecord
  split
  · exact damaged slot s
  · rfl
  · rfl
  · split
    · split
      · unfold takeInUse
        split
        · rfl
        · split
          · exact damaged _ _
          · exact damaged slot s
      · exact damaged slot s
    · exact damaged slot s

theorem imageTaken_phase (k : Nat) (ecc : Ecc) (records : List RawRecord) (s : State) :
    (imageTaken k ecc records s).metaCtl.phase = s.metaCtl.phase := by
  unfold imageTaken
  split
  · have damaged : (damagedImage k (freePort s)).metaCtl.phase
        = ((List.range 4).foldl (fun t i => deadSlot (4 * k + i) t) (freePort s)).metaCtl.phase := by
      simp [damagedImage, addRepair_phase]
    rw [damaged]
    simp
  · refine foldl_range_induction (P := fun _ t => t.metaCtl.phase = s.metaCtl.phase)
      (f := fun t i => takeNth k records i t) (fun i _ t h => ?_) (by simp)
    unfold takeNth
    split
    · exact (takeRecord_phase _ _ t).trans h
    · exact h

theorem imageTaken_frame (k : Nat) (ecc : Ecc) (records : List RawRecord) (s : State) :
    (imageTaken k ecc records s).pins = s.pins ∧ (imageTaken k ecc records s).path = s.path
      ∧ (imageTaken k ecc records s).link = (freePort s).link := by
  unfold imageTaken
  split <;> simp

theorem imageTaken_requests (k : Nat) (ecc : Ecc) (records : List RawRecord) (s : State) :
    SameRequests s (imageTaken k ecc records s) :=
  imageTaken_induction (P := fun _ t => SameRequests s t) (fun _ _ h => h)
    (fun _ r t _ h => h.trans (takeRecord_requests _ r t)) (fun _ _ _ same h => h.trans same.2.2) ecc records
    ⟨rfl, rfl, rfl⟩

/-- The image is loaded: the thresholds' posts, and the next read. -/
theorem imageLoaded_eq (s : State) :
    ∃ t, imageLoaded s = placeLoad (.settings 1) t ∧ t.pins = s.pins ∧ t.metaCtl = s.metaCtl ∧ t.link = s.link
      ∧ t.path = s.path ∧ t.remap = { s.remap with loaded := true } := by
  refine ⟨_, rfl, ?_⟩
  split_ifs <;> simp

/-- Where a step of LOADING leads, from line `l` (R159 to R162). -/
def LoadStep (l : MetaLine) (s t : State) : Prop :=
  (t.pins.porst = true ∧ Below 0 t) ∨ t.metaCtl.phase = .unformatted ∨ t.metaCtl.phase.starting = false
    ∨ (Loading l t ∧ Below (loadBound l) t)
    ∨ loadInFlight s = some l ∧ ∃ l', loadNext l = some l' ∧ Loading l' t ∧ Below (loadBound l') t

theorem LoadStep.stay {l : MetaLine} {s t : State} (loading : Loading l t) (below : Below (loadBound l) t) :
    LoadStep l s t := .inr (.inr (.inr (.inl ⟨loading, below⟩)))

theorem LoadStep.next {l l' : MetaLine} {s t : State} (flight : loadInFlight s = some l) (next : loadNext l = some l')
    (loading : Loading l' t) (below : Below (loadBound l') t) : LoadStep l s t :=
  .inr (.inr (.inr (.inr ⟨flight, l', next, loading, below⟩)))

theorem headerDone_loadStep {l : MetaLine} {s : State} (h : Loading l s) (below : Below (loadBound l) s) (ecc : Ecc)
    (header : HeaderImage) : LoadStep l s (headerDone ecc header s) := by
  unfold headerDone
  split
  · next flight =>
    obtain ⟨rfl, _⟩ := h.loadInFlight flight
    dsimp only
    split
    · refine .next flight rfl (h.placed flight (by simp) (by simp) (by simp) (by simp) (.of_remap (by simp)) ?_) ?_
      · exact Nat.zero_lt_succ 1023
      · exact below.within (.of_remap (by simp))
    · exact .inr (.inl (by simp))
  · exact .stay h below

theorem imageReadDone_loadStep {l : MetaLine} {s : State} (h : Loading l s) (below : Below (loadBound l) s) (ecc : Ecc)
    (records : List RawRecord) : LoadStep l s (imageReadDone ecc records s) := by
  by_cases other : ∀ k, loadInFlight s ≠ some (.image k)
  · rw [imageReadDone_other other]
    exact .stay h below
  · obtain ⟨k, flight⟩ := not_forall_not.1 other
    obtain ⟨rfl, _⟩ := h.loadInFlight flight
    have exist : k < 1024 := h.lineExists
    have taken := imageReadDone_below flight ecc records below
    obtain ⟨pins, path, link⟩ := imageTaken_frame k ecc records s
    have requests := imageTaken_requests k ecc records s
    have phase := imageTaken_phase k ecc records s
    have done := imageReadDone_eq flight ecc records
    by_cases more : k < 1023
    · rw [if_pos more] at done
      rw [done] at taken ⊢
      refine .next flight (congrArg some (if_pos more))
        (h.placed flight (by rw [pins]) phase link (by rw [path]) requests ?_) taken
      exact Nat.succ_lt_succ more
    · rw [if_neg more] at done
      obtain rfl : k = 1023 := by omega
      obtain ⟨t, placed, pins', metaCtl, link', path', remap⟩ := imageLoaded_eq (imageTaken 1023 ecc records s)
      rw [done, placed] at taken ⊢
      refine .next flight rfl (h.placed flight (by rw [pins', pins]) (by rw [metaCtl, phase]) (link'.trans link)
        (by rw [path', path]) (requests.trans ⟨by rw [remap], by rw [remap], by rw [remap]⟩) ?_) taken
      exact Nat.one_lt_ofNat

theorem enterRepairing_phase (s : State) : (enterRepairing s).metaCtl.phase.starting = false := by
  cases repair : s.metaCtl.repair with
  | nil =>
    rw [enterRepairing_nil repair]
    rfl
  | cons l rest =>
    rw [enterRepairing_cons repair]
    dsimp only
    split <;> simp [Phase.starting]

/-- What follows an event does not lead back before service (R158, R166). -/
theorem settle_starting {s : State} (h : s.metaCtl.phase.starting = false) :
    (settle s).metaCtl.phase.starting = false := by
  rw [settle_eq]
  split
  · simpa using enterRepairing_phase s
  · simpa using h

theorem settingsReadDone_loadStep {l : MetaLine} {s : State} (h : Loading l s) (below : Below (loadBound l) s)
    (ecc : Ecc)
    (classes : List RawClass) (regions : List RegionEntry) :
    LoadStep l s (settingsReadDone ecc classes regions s) := by
  unfold settingsReadDone
  split
  · next j flight =>
    obtain ⟨rfl, _⟩ := h.loadInFlight flight
    dsimp only
    split
    · next more =>
      refine .next flight (l' := .settings (j + 2)) ?_ (h.placed flight ?_ ?_ ?_ ?_ (.of_remap ?_) ?_) ?_
      · exact if_pos more
      · split <;> simp
      · split
        · exact addRepair_phase _ _
        · simp
      · split <;> simp
      · split <;> simp
      · split <;> simp
      · exact Nat.succ_lt_succ more
      · refine below.within (.of_remap ?_)
        split <;> simp
    · exact .inr (.inr (.inl (settle_starting (by simp [enterReadReady, Phase.starting]))))
  · exact .stay h below

theorem exec_loadStep {l : MetaLine} {s : State} (h : Loading l s) (below : Below (loadBound l) s) (c : Instr) :
    Leads (LoadStep l) (exec c s) s := by
  have part {f : State → State} (lead : LoadStep l s (f s)) : Leads (LoadStep l) (onPart f s) s := by
    refine .next ?_
    rw [if_neg (by simp [h.porst])]
    exact lead
  by_cases assert : c = .porstAssert
  · subst assert
    refine .next ?_
    rw [if_neg (by simp [h.porst])]
    exact .inl ⟨rfl, nofun, nofun⟩
  by_cases other : completesLoad c = false
  · intro t next
    obtain ⟨loading, remap⟩ := exec_loadKept other assert s t next l h
    exact .stay loading (below.within (.of_remap remap))
  cases c
  case headerReadComplete ecc header => exact part (headerDone_loadStep h below ecc header)
  case imageReadComplete ecc records => exact part (imageReadDone_loadStep h below ecc records)
  case settingsReadComplete ecc classes regions => exact part (settingsReadDone_loadStep h below ecc classes regions)
  all_goals exact absurd rfl other

/-- Time passes in LOADING (R166). -/
theorem tick_loadKept (s : State) : LoadKept s (tick s) := by
  refine .ite (.refl s) ?_
  exact .of_same rfl rfl rfl rfl rfl rfl rfl

/-! #### The pool over a step -/

/-- A step is a tick, or the command at the front on the rest of the queue. -/
theorem step_cases {s t : State} (next : step s = .next t) :
    t = tick s ∨ ∃ c rest, exec c { s with pending := rest } = .next t := by
  unfold step at next
  split at next
  · cases next
    exact .inl rfl
  · exact .inr ⟨_, _, next⟩

theorem tick_remap (s : State) : (tick s).remap = s.remap := by simp

/-- Settles O60: every command keeps the pool, the read of an image line takes four more slots, and LOADING goes on or
ends. -/
theorem sparePoolStaysAPartition : Obligations.SparePoolStaysAPartition := by
  refine ⟨fun s t pool sparse other next => ?_, fun s t k pool sparse exist load serving untouched next => ?_,
    fun s t l loading untouched next => ?_⟩
  · rcases step_cases next with rfl | ⟨c, rest, next⟩
    · exact (tick_kept s).pool sparse pool
    · exact exec_pool next sparse pool fun ecc records _ => by
        rw [imageReadDone_other (s := { s with pending := rest }) other]
        exact pool
  · rw [untouchedFrom_iff] at untouched ⊢
    rcases step_cases next with rfl | ⟨c, rest, next⟩
    · exact ⟨(tick_kept s).pool sparse pool,
        (untouched.mono (by omega)).within (.of_remap (tick_remap s))⟩
    · refine ⟨exec_pool next sparse pool fun ecc records _ => ?_, 
        exec_below_of_image (s := { s with pending := rest }) load next untouched⟩
      have taken : TakenBelow (4 * k) { s with pending := rest } :=
        ⟨untouched, poolOk_slots pool, ((sparseOk_iff s).mp sparse).1.1, serving⟩
      have after := imageReadDone_takenBelow (s := { s with pending := rest }) exist load ecc records taken
      exact poolOk_idle after.serving after.slots
  · simp only [untouchedFrom_iff] at untouched ⊢
    rcases step_cases next with rfl | ⟨c, rest, next⟩
    · exact LoadStep.stay (tick_loadKept s l loading).1 (untouched.within (.of_remap (tick_remap s)))
    · have front : Loading l { s with pending := rest } :=
        loading.become rfl rfl loading.ops rfl rfl (.of_remap rfl) loading.lineExists
      exact exec_loadStep front untouched c t next

end Sys2Proof.Machine
end

section
namespace Sys2Proof.Machine

/-! ### The step, and that every command has one (log entries 2, 3, 25, 26) -/

/-- Settles O1: the queue of the model, by definition of a step. -/
theorem stepTakesTheFrontCommand : Obligations.StepTakesTheFrontCommand := fun _ _ _ => rfl

theorem tick_out {s : State} (released : s.pins.porst = false) :
    tick s =
      { s with
        link := { s.link with waitTicks := s.link.waitTicks + (if grantWait s then 1 else 0) }
        metaCtl := { s.metaCtl with settleTicks := s.metaCtl.settleTicks.map (· + 1) }
        health := (tick s).health } := by
  have wait : (if grantWait s then s.link.waitTicks + 1 else s.link.waitTicks)
      = s.link.waitTicks + (if grantWait s then 1 else 0) := by split <;> rfl
  simp [tick, released, wait]

theorem tick_health {s : State} (released : s.pins.porst = false) :
    (tick s).health =
      if s.health.patrol.mode = .stopped then s.health
      else
        { s.health with
          patrol :=
            { s.health.patrol with
              ticks := s.health.patrol.ticks + 1, since := min 65535 (s.health.patrol.since + 1) } } := by
  by_cases stopped : s.health.patrol.mode = .stopped <;> simp [tick, released, stopped]

/-- Settles O2: a tick, block by block. -/
theorem emptyQueueLetsATickPass : Obligations.EmptyQueueLetsATickPass := by
  intro s empty
  rw [step_nil empty]
  refine ⟨fun held => by simp [tick, held], fun released => ⟨_, rfl, ?_, ?_, ?_, fun stopped => ?_, fun runs => ?_⟩⟩
  · rw [tick_out released]
    constructor <;> simp
  · rw [tick_out released]
  · rw [tick_out released]
  · rw [tick_health released, if_pos stopped]
  · rw [tick_health released, if_neg runs]

theorem exec_next (c : Instr) (s : State) : ∃ t, exec c s = .next t := by
  have branch {p : Prop} [Decidable p] {a b : State} :
      ∃ t, (if p then Host.Outcome.next a else .next b : Host.Outcome State Fault Refusal) = .next t := by
    split <;> exact ⟨_, rfl⟩
  cases c
  case srstAssert => exact branch
  case srstRelease => exact branch
  case pwarnAssert => exact branch
  case agntAssert => exact branch
  case agntWithdraw => exact branch
  case cancel =>
    cases busy : s.mgmt.busy with
    | none => exact ⟨_, by rw [exec, execCancel, busy]⟩
    | some b => exact ⟨_, by rw [exec, execCancel, busy]; rfl⟩
  all_goals exact ⟨_, rfl⟩

/-- The commands that wait behind the one that runs are left as they are (log entry 26). -/
def SamePending (s t : State) : Prop := t.pending = s.pending

/-- The meaning may run on a state whose pins have changed already. -/
theorem Leads.samePending {f : State → State} (keeps : ∀ s, (f s).pending = s.pending) {s t : State}
    (same : t.pending = s.pending) : Leads SamePending (Sys2Proof.Machine.onPart f t) s := by
  refine .next ?_
  split
  · exact same
  · exact (keeps t).trans same

theorem takeCommand_pending {carry : State → State} (keeps : ∀ s, (carry s).pending = s.pending) (code : BitVec 8)
    (s : State) : (takeCommand code carry s).pending = s.pending := by
  unfold takeCommand
  split_ifs
  · rfl
  · simp
  · exact keeps _

theorem underLock_pending {carry : State → State} (keeps : ∀ s, (carry s).pending = s.pending) (s : State) :
    (underLock carry s).pending = s.pending := by
  unfold underLock
  split
  · simp
  · split <;> simp [keeps]

theorem outsideGeometryFault_pending {carry : State → State} (keeps : ∀ s, (carry s).pending = s.pending) (s : State) :
    (outsideGeometryFault carry s).pending = s.pending := by
  unfold outsideGeometryFault
  split <;> simp [keeps]

theorem inService_pending {carry : State → State} (keeps : ∀ s, (carry s).pending = s.pending) (s : State) :
    (inService carry s).pending = s.pending := by
  unfold inService
  split <;> simp [keeps]

theorem Leads.codePending {carry : State → State} (keeps : ∀ s, (carry s).pending = s.pending) (code : BitVec 8)
    (s : State) : Leads SamePending (.next (Sys2Proof.Machine.takeCommand code carry s)) s :=
  .next (takeCommand_pending keeps code s)

theorem execCancel_pending (s : State) : Leads SamePending (execCancel s) s := by
  unfold execCancel
  split
  · exact .samePending (fun s => by simp) rfl
  · exact .codePending (fun s => by simp) _ s

theorem exec_pending (c : Instr) (s : State) : Leads SamePending (exec c s) s := by
  cases c
  case porstAssert =>
    refine .next ?_
    split <;> rfl
  case porstRelease g =>
    refine .next ?_
    split
    · obtain ⟨p, u, phase, work, release⟩ := atRelease_powerOn s.pins g s.pending
      rw [release]
      exact powerOn_pending ..
    · rfl
  -- an edge of a pin changes the level, and then the part
  case srstAssert => exact .ite (.next rfl) (.samePending (f := systemReset) (fun s => by simp) rfl)
  case srstRelease => exact .ite (.samePending (f := openDrainWait) (fun s => by simp) rfl) (.next rfl)
  case pwarnAssert => exact .ite (.next rfl) (.samePending (f := powerWarning) (fun s => by simp) rfl)
  case pwarnRelease => exact .next rfl
  case agntAssert => exact .ite (.next rfl) (.samePending (f := grantReturns) (fun s => by simp) rfl)
  case agntWithdraw => exact .ite (.samePending (f := grantFalls) (fun s => by simp) rfl) (.next rfl)
  -- the command codes
  case setFence => exact .codePending (underLock_pending fun s => by simp) _ s
  case loadRegion => exact .codePending (underLock_pending fun s => by simp) _ s
  case loadClass => exact .codePending (underLock_pending fun s => by simp) _ s
  case saveSettings => exact .codePending (underLock_pending fun s => by simp) _ s
  case readRemap => exact .codePending (inService_pending fun s => by simp) _ s
  case readSlot => exact .codePending (inService_pending fun s => by simp) _ s
  case patrolStart => exact .codePending (inService_pending fun s => by simp) _ s
  case readLimits => exact .codePending (outsideGeometryFault_pending fun s => by simp) _ s
  case loadRange => exact .codePending (outsideGeometryFault_pending fun s => by simp) _ s
  case loadTarget => exact .codePending (outsideGeometryFault_pending fun s => by simp) _ s
  case sequenceSet => exact .codePending (outsideGeometryFault_pending fun s => by simp) _ s
  case sequenceArm => exact .codePending (outsideGeometryFault_pending fun s => by simp) _ s
  case sequenceDisarm => exact .codePending (outsideGeometryFault_pending fun s => by simp) _ s
  case drainAll => exact .codePending (outsideGeometryFault_pending fun s => by simp) _ s
  case setReserve => exact .codePending (outsideGeometryFault_pending fun s => by simp) _ s
  case readCandidate => exact .codePending (outsideGeometryFault_pending fun s => by simp) _ s
  case patrolStop => exact .codePending (outsideGeometryFault_pending fun s => by simp) _ s
  case patrolStatus => exact .codePending (outsideGeometryFault_pending fun s => by simp) _ s
  case setGrantLimit => exact .codePending (outsideGeometryFault_pending fun s => by simp) _ s
  case fenceLock => exact .codePending (fun s => by simp) _ s
  case fenceUnlock maintEn => exact .codePending (fun s => by simp) _ s
  case fenceFreeze => exact .codePending (fun s => by simp) _ s
  case retireLine => exact .codePending (fun s => by simp) _ s
  case formatArray => exact .codePending (fun s => by simp) _ s
  case cancel => exact execCancel_pending s
  case unknownCommand code =>
    refine .next ?_
    unfold SamePending
    split
    · rfl
    · exact takeCommand_pending (fun s => by simp) code s
  -- an event that is acted on when its timer has run, or while busy
  case grantWaitExpiry =>
    refine .samePending (f := fun s => if grantExpired s then settle (expire s) else s) (fun s => ?_) rfl
    split <;> simp
  case settleTimerExpiry =>
    refine .samePending (f := fun s => if s.metaCtl.phase = .readReady ∧ settleExpired s then enterRepairing s else s)
      (fun s => ?_) rfl
    split <;> simp
  case commandWriteWhileBusy code =>
    refine .samePending (f := fun s => if s.mgmt.busy.isSome ∧ code ≠ 0x19#8 then post .commandOverrun s else s)
      (fun s => ?_) rfl
    split <;> simp
  -- an operation that `settle` follows
  case systemReadComplete ecc data =>
    exact .samePending (f := fun s => settle (readDone ecc data s)) (fun s => by simp) rfl
  case waitingWritePlace => exact .samePending (f := fun s => settle (placeWaiting s)) (fun s => by simp) rfl
  case claimGrant line => exact .samePending (f := fun s => settle (settleClaims line s)) (fun s => by simp) rfl
  case reassignServe => exact .samePending (f := fun s => settle (serveReassign s)) (fun s => by simp) rfl
  -- the meaning of every other command is one operation
  all_goals
    refine .samePending ?_ rfl
    intro u
    simp

/-- Settles O3: every arm is a next state, and no operation touches the queue of commands. -/
theorem everyCommandAnswersANextState : Obligations.EveryCommandAnswersANextState := by
  intro c s
  obtain ⟨t, next⟩ := exec_next c s
  exact ⟨t, next, exec_pending c s t next⟩

/-! ### Power-on reset (R8, R158) -/

/-- Settles O4: the values of the reset state, by evaluation. -/
theorem resetHoldsThePowerOnValues : Obligations.ResetHoldsThePowerOnValues := by
  refine ⟨by decide, rfl, rfl, rfl, rfl, rfl, rfl, rfl, rfl, rfl, rfl, rfl, rfl, rfl, rfl, by decide, ?_⟩
  exact ⟨rfl, rfl, rfl, rfl, rfl, rfl, rfl, rfl, rfl, rfl, rfl, rfl, rfl⟩

/-- The native user limits (R22). -/
theorem uNative_eq {g : BitVec 2} (ok : g ≠ 3#2) :
    Config.uNative g = if g = 0#2 then 1043450 else if g = 1#2 then 2092026 else 4189178 := by
  revert ok g
  decide

theorem exec_porstRelease {s : State} (held : s.pins.porst = true) (g : BitVec 2) :
    exec (.porstRelease g) s = .next (State.atRelease s.pins g s.pending) := by
  rw [exec, execPorstRelease, if_pos held]

/-- Settles O5: the two GEOM cases, each a state of power-on values. -/
theorem porstReleaseSamplesGeom : Obligations.PorstReleaseSamplesGeom := by
  intro g s held
  refine ⟨State.atRelease s.pins g s.pending, exec_porstRelease held g, ?_⟩
  have closed (p : Pins) (phase : Phase) (u : Nat) (work : List ArrayOp) (early : phase.starting = true) :
      serviceState (State.powerOn p u phase work s.pending) = if p.srst then .closed else .start := by
    cases phase with
    | readReady | repairing | fullReady => cases early
    | _ => rfl
  by_cases fault : g = 3#2
  · have release : State.atRelease s.pins g s.pending
        = State.powerOn { s.pins with porst := false, geom := g } 0 .geometryFault [] s.pending := if_pos fault
    rw [release]
    refine ⟨rfl, rfl, fun _ => ⟨rfl, rfl⟩, fun ok => absurd fault ok, rfl, rfl, rfl, rfl, rfl, rfl, rfl, rfl, rfl, rfl,
      rfl,
      rfl, rfl, rfl, rfl, rfl, rfl, rfl, rfl, rfl, rfl, rfl, rfl, rfl, rfl, rfl, fun ok => absurd fault ok, ?_⟩
    exact closed _ _ _ _ rfl
  · have release : State.atRelease s.pins g s.pending
        = State.powerOn { s.pins with porst := false, geom := g } (Config.uNative g) .loading
          [headerRead (Config.uNative g)] s.pending := if_neg fault
    rw [release]
    refine ⟨rfl, rfl, fun h => absurd h fault, fun ok => ⟨rfl, uNative_eq ok, rfl, rfl, rfl⟩, rfl, rfl, rfl, rfl, rfl,
      rfl,
      rfl, rfl, rfl, rfl, rfl, rfl, rfl, rfl, rfl, rfl, rfl, rfl, rfl, rfl, rfl, rfl, rfl, rfl, rfl, rfl, fun _ => ?_,
        ?_⟩
    · exact ⟨rfl, rfl, rfl, Nat.zero_lt_succ 5, rfl, rfl, rfl, rfl, rfl⟩
    · exact closed _ _ _ _ rfl

/-- Under PORST a command other than its release changes levels of pins at most. -/
def Held (s t : State) : Prop := Keeps [.pins] s t ∧ t.pins.porst = true ∧ t.pins.geom = s.pins.geom

theorem Held.setPins {s : State} {p : Pins} (porst : p.porst = true) (geom : p.geom = s.pins.geom) :
    Held s { s with pins := p } := ⟨by constructor <;> simp, porst, geom⟩

theorem Held.refl {s : State} (held : s.pins.porst = true) : Held s s := Held.setPins held rfl

theorem Leads.held {f : State → State} {s t : State} (held : Held s t) :
    Leads Held (Sys2Proof.Machine.onPart f t) s := by
  refine .next ?_
  rw [if_pos held.2.1]
  exact held

theorem Leads.heldCode {carry : State → State} {code : BitVec 8} {s : State} (held : s.pins.porst = true) :
    Leads Held (.next (Sys2Proof.Machine.takeCommand code carry s)) s := by
  refine .next ?_
  rw [Sys2Proof.Machine.takeCommand, if_pos held]
  exact .refl held

theorem exec_held {c : Instr} {s : State} (held : s.pins.porst = true) (release : ∀ g, c ≠ .porstRelease g) :
    Leads Held (exec c s) s := by
  have same := Held.refl held
  cases c
  case porstRelease g => exact absurd rfl (release g)
  case porstAssert =>
    refine .next ?_
    rw [if_pos held]
    exact same
  -- the other pins
  case srstAssert => exact .ite (.next same) (.held (.setPins held rfl))
  case srstRelease => exact .ite (.held (.setPins held rfl)) (.next same)
  case pwarnAssert => exact .ite (.next same) (.held (.setPins held rfl))
  case pwarnRelease => exact .next (.setPins held rfl)
  case agntAssert => exact .ite (.next same) (.held (.setPins held rfl))
  case agntWithdraw => exact .ite (.held (.setPins held rfl)) (.next same)
  -- the codes
  case readLimits | setFence | fenceLock | fenceUnlock | fenceFreeze | loadRegion | loadClass | saveSettings | loadRange
    | loadTarget | sequenceSet | sequenceArm | sequenceDisarm | drainAll | setReserve | retireLine | readRemap |
      readSlot
    | readCandidate | patrolStart | patrolStop | patrolStatus | setGrantLimit | formatArray => exact .heldCode held
  case cancel =>
    change Leads Held (execCancel s) s
    unfold execCancel
    split
    · exact .held same
    · exact .heldCode held
  case unknownCommand code =>
    refine .next ?_
    split
    · exact same
    · rw [takeCommand, if_pos held]
      exact same
  -- an operation that `settle` follows
  case systemReadComplete ecc data => exact .held (f := fun s => settle (readDone ecc data s)) same
  case waitingWritePlace => exact .held (f := fun s => settle (placeWaiting s)) same
  case claimGrant line => exact .held (f := fun s => settle (settleClaims line s)) same
  case reassignServe => exact .held (f := fun s => settle (serveReassign s)) same
  -- the meaning of every other command is suspended
  all_goals exact .held same

/-- Settles O6: the power-on values, and that PORST holds everything but the pins' levels. -/
theorem porstAssertEndsAllWork : Obligations.PorstAssertEndsAllWork := by
  refine ⟨fun s released => ?_, fun c s held release => ?_⟩
  · refine ⟨State.powerOn { s.pins with porst := true } 0 .geometryFault [] s.pending, ?_, rfl, rfl, rfl, rfl, rfl, rfl,
      rfl, rfl, rfl, rfl, rfl, rfl, rfl, rfl, rfl, rfl, rfl, rfl, rfl, fun f => ?_, rfl, ?_⟩
    · rw [exec, execPorstAssert, if_neg (by simp [released])]
    · have clear (g : Group) (p : Pins) : (State.powerOn p 0 .geometryFault [] s.pending).events.group g = .clear := by
        cases g <;> rfl
      simp [Events.isSet, Events.isEnabled, clear, EventGroup.clear]
    · rfl
  · obtain ⟨t, next⟩ := exec_next c s
    exact ⟨t, next, exec_held held release t next⟩

end Sys2Proof.Machine
end

section
namespace Sys2Proof.Machine

/-! ### Events and the registers that clear them (R177 to R184) -/

theorem flagsOf_position (f : Flag) : (flagsOf f.group)[f.position]? = some f := by
  cases f <;> rfl

/-- A flag is given by its group and its position (R177). -/
theorem flag_ext {f f' : Flag} (group : f'.group = f.group) (position : f'.position = f.position) : f' = f := by
  have same := flagsOf_position f'
  rw [group, position, flagsOf_position f] at same
  exact (Option.some.inj same).symm

theorem position_lt (f : Flag) : f.position < 32 := by
  cases f <;> decide

theorem group_post_flags (x : EventGroup) (n : Nat) {m : Nat} (bit : m < 32) :
    (x.post n).flags.getLsbD m = (x.flags.getLsbD m || (decide (m = n) && x.enables.getLsbD n)) := by
  unfold EventGroup.post
  split
  · next enabled =>
    by_cases same : m = n
    · subst same
      simp [enabled, bit]
    · by_cases below : m < n
      · simp [same, below]
      · have : m - n ≠ 0 := by omega
        simp [same, below, bit, this]
  · next disabled => simp [disabled]

theorem isSet_post (e : Events) (f f' : Flag) :
    (e.post f).isSet f' = (e.isSet f' || (decide (f' = f) && e.isEnabled f)) := by
  unfold Events.isSet Events.isEnabled Events.post
  by_cases group : f'.group = f.group
  · rw [group, setGroup_group, group_post_flags _ _ (position_lt f')]
    have position : f'.position = f.position ↔ f' = f := ⟨flag_ext group, fun same => same ▸ rfl⟩
    simp [position]
  · rw [setGroup_group_ne _ _ group]
    have other : f' ≠ f := fun same => group (same ▸ rfl)
    simp [other]

theorem isEnabled_post (e : Events) (f f' : Flag) : (e.post f).isEnabled f' = e.isEnabled f' := by
  unfold Events.isEnabled Events.post
  by_cases group : f'.group = f.group
  · rw [group, setGroup_group, group_post_enables]
  · rw [setGroup_group_ne _ _ group]

/-- Settles O7: a post by position, and an incident by the room in the queue. -/
theorem postedCausesSetEnabledFlags : Obligations.PostedCausesSetEnabledFlags := by
  refine ⟨fun f f' s => ⟨isSet_post _ f f', isEnabled_post _ f f', by simp, by simp, by simp, ?_⟩,
    fun i s => ⟨fun room => ?_, fun full => ?_, ?_⟩⟩
  · constructor <;> simp
  · rw [writeIncident, if_pos room]
  · rw [writeIncident, if_neg (Nat.not_lt.mpr full), post_events]
  · constructor <;> simp

/-! #### Flags, enables and hits by written ones -/

theorem writeFlags_isSet (e : Events) (g : Group) (v : Word) (f : Flag) :
    (e.setGroup g ((e.group g).writeFlags v)).isSet f
      = (e.isSet f && !(decide (f.group = g) && v.getLsbD f.position)) := by
  unfold Events.isSet
  by_cases group : f.group = g
  · subst group
    simp [EventGroup.writeFlags, position_lt f]
  · rw [setGroup_group_ne _ _ group]
    simp [group]

theorem writeFlags_enables (e : Events) (g : Group) (v : Word) (g' : Group) :
    ((e.setGroup g ((e.group g).writeFlags v)).group g').enables = (e.group g').enables := by
  by_cases group : g' = g
  · subst group
    simp [EventGroup.writeFlags]
  · rw [setGroup_group_ne _ _ group]

/-- Settles O8: both writes position by position. -/
theorem writtenOnesClearFlagsAndHits : Obligations.WrittenOnesClearFlagsAndHits := by
  refine ⟨fun g v s out => ⟨writeFlags g v s, onPart_out out _, ?_, writeFlags_isSet _ g v, writeFlags_enables _ g v,
    ?_⟩,
    fun v s out => ⟨clearHits v s, onPart_out out _, ?_, ?_, fun e r entry => ?_, rfl⟩⟩
  · constructor <;> simp
  · simp
  · constructor <;> simp
  · simp
  · rw [clearHits_watch, List.getElem?_mapIdx, entry]
    cases written : v.getLsbD e <;> simp

theorem assigned_position (f : Flag) : (groupPositions f.group).getLsbD f.position = true := by
  cases f <;> decide

theorem writeEnables_isEnabled (e : Events) (g : Group) (v : Word) (f : Flag) :
    (e.setGroup g ((e.group g).writeEnables g v)).isEnabled f
      = if f.group = g then v.getLsbD f.position else e.isEnabled f := by
  unfold Events.isEnabled
  split
  · next group =>
    subst group
    simp [EventGroup.writeEnables, assigned_position f]
  · next group => rw [setGroup_group_ne _ _ group]

/-- A set flag is enabled (R181). -/
theorem isEnabled_of_isSet {s : State} (ok : eventsOk s = true) {f : Flag} (set : s.events.isSet f = true) :
    s.events.isEnabled f = true := by
  have group := groupOk_of_eventsOk ok f.group
  simp only [groupOk, Bool.and_eq_true, beq_iff_eq] at group
  exact getLsbD_of_and_not_eq_zero group.1 set

theorem writeEnables_isSet {s : State} (ok : eventsOk s = true) (g : Group) (v : Word) (f : Flag) :
    (writeEnables g v s).events.isSet f
      = if s.events.isEnabled f = true ∧ (writeEnables g v s).events.isEnabled f = false then false
        else s.events.isSet f := by
  rw [writeEnables_events, writeEnables_isEnabled]
  have enabled := isEnabled_of_isSet ok (f := f)
  unfold Events.isSet at enabled ⊢
  by_cases group : f.group = g
  · subst group
    rw [setGroup_group, if_pos rfl]
    cases set : (s.events.group f.group).flags.getLsbD f.position with
    | false => simp [EventGroup.writeEnables, set]
    | true => cases bit : v.getLsbD f.position <;> simp [EventGroup.writeEnables, set, bit, enabled set,
      assigned_position f]
  · rw [setGroup_group_ne _ _ group, if_neg group]
    split
    · next both => exact absurd (both.1.symm.trans both.2) (by simp)
    · rfl

/-- Settles O9: the enables by position, and the flags by what was enabled. -/
theorem enablesWritePlacesEnables : Obligations.EnablesWritePlacesEnables := by
  intro g v s out ok
  refine ⟨writeEnables g v s, onPart_out out _, ?_, writeEnables_isEnabled _ g v, writeEnables_isSet ok g v, ?_⟩
  · constructor <;> simp
  · simp

/-! #### Incidents (R178) -/

theorem pop_group (e : Events) (g : Group) : e.pop.group g = e.group g := by
  unfold Events.pop
  split <;> cases g <;> rfl

theorem pop_incidents (e : Events) : e.pop.incidents = e.incidents.drop 1 := by
  unfold Events.pop
  split
  · next empty => rw [empty]; rfl
  · next front => rw [front]; rfl

theorem pop_popped (e : Events) : e.pop.popped = e.incidents.head? := by
  unfold Events.pop
  split
  · next empty => rw [empty]; rfl
  · next front => rw [front]; rfl

/-- INC0 from the codes of kind and port and the presence bits. -/
def inc0Word (kind port : Nat) (line detail index : Bool) : Word :=
  word kind ||| (word port <<< 8) ||| (flagBit line <<< 16) ||| (flagBit detail <<< 17) ||| (flagBit index <<< 18)

theorem inc0_eq (i : Incident) :
    inc0 i = inc0Word i.kind.code ((i.port.map portCode).getD 0) i.line.isSome i.detail.isSome i.index.isSome := rfl

/-- The fields of INC0 do not overlap (R178). -/
theorem inc0Word_fields : ∀ kind < 9, ∀ port < 3, ∀ line detail index : Bool,
    let w := inc0Word kind port line detail index
    w.extractLsb' 0 8 = BitVec.ofNat 8 kind ∧ w.extractLsb' 8 2 = BitVec.ofNat 2 port ∧ w.getLsbD 16 = line
      ∧ w.getLsbD 17 = detail ∧ w.getLsbD 18 = index ∧ w &&& 0xFFF8FC00#32 = 0#32 := by
  decide

/-- Of the commands, INCIDENT_POP and PORST alone change the record shown (R178). -/
theorem exec_popped {c : Instr} {s t : State} (next : exec c s = .next t) (pop : ∀ v, c ≠ .incidentPop v)
    (assert : c ≠ .porstAssert) (release : ∀ g, c ≠ .porstRelease g) : t.events.popped = s.events.popped := by
  by_cases keeps : keepsAll c = true
  · exact (exec_keptAll keeps s t next).popped
  cases c
  case porstAssert => exact absurd rfl assert
  case porstRelease g => exact absurd rfl (release g)
  case incidentPop v => exact absurd rfl (pop v)
  case imageReadComplete ecc records => exact (imageReadComplete_keptMost ecc records s t next).popped
  case registerWrite index v =>
    cases next
    split
    · rfl
    · simp
  all_goals exact absurd rfl keeps

theorem getLsbD_flagBit (b : Bool) (n : Nat) : (flagBit b).getLsbD n = (decide (n = 0) && b) := by
  cases b <;> simp [flagBit]

/-- A register that holds the bit `f i` at every position `i` below `m`. -/
theorem getLsbD_foldl_flagBit (f : Nat → Bool) (m : Nat) {e : Nat} (bit : e < 32) :
    ((List.range m).foldl (fun (w : Word) i => w ||| (flagBit (f i) <<< i)) 0#32).getLsbD e
      = (decide (e < m) && f e) := by
  induction m with
  | zero => simp
  | succ m ih =>
    rw [List.range_succ, List.foldl_append, List.foldl_cons, List.foldl_nil, BitVec.getLsbD_or, ih,
      BitVec.getLsbD_shiftLeft, getLsbD_flagBit]
    rcases Nat.lt_trichotomy e m with below | rfl | above
    · simp [below, Nat.lt_succ_of_lt below]
    · simp [bit]
    · have beyond : ¬e < m + 1 := by omega
      have apart : e - m ≠ 0 := by omega
      simp [above.not_gt, beyond, apart]

theorem hitsRegister_bit (s : State) {e : Nat} (entry : e < 8) :
    (hitsRegister s).getLsbD e = (s.watch.ranges.getD e RangeWatch.cleared).hit := by
  rw [hitsRegister, getLsbD_foldl_flagBit _ 8 (by omega)]
  simp [entry]

/-- What INC0 to INC3 show of a record (R178). -/
theorem popIncident_shows {s : State} {i : Incident} {rest : List Incident} (front : s.events.incidents = i :: rest) :
    readRegister (popIncident s) 0x20#7 = inc0 i ∧ readRegister (popIncident s) 0x21#7 = word (i.line.getD 0)
      ∧ readRegister (popIncident s) 0x22#7 = (i.detail.getD 0#8).setWidth 32
      ∧ readRegister (popIncident s) 0x23#7 = word (i.index.getD 0) := by
  have popped : (popIncident s).events.popped = some i := by rw [popIncident_events, pop_popped, front]; rfl
  have shown (n : Nat) (r : BitVec 7) (h : readRegister (popIncident s) r
      = incidentRegister (popIncident s).events.popped n) :
      readRegister (popIncident s) r = incidentRegister (some i) n := by rw [h, popped]
  exact ⟨shown 0 _ rfl, shown 1 _ rfl, shown 2 _ rfl, shown 3 _ rfl⟩

theorem kind_code_lt (k : IncidentKind) : k.code < 9 := by
  cases k <;> decide

theorem port_code_lt (p : Option Port) : (p.map portCode).getD 0 < 3 := by
  rcases p with _ | _ | _ <;> decide

/-- Settles O11: what a pop shows, field by field, and that nothing else changes it. -/
theorem incidentPopShowsTheOldestRecord : Obligations.IncidentPopShowsTheOldestRecord := by
  refine ⟨fun v s out => ⟨popIncident s, onPart_out out _, ?_, fun f => ?_, ?_, pop_incidents _, pop_popped _,
    fun empty => ?_, fun i rest front => ?_⟩, fun c s t next pop assert release => exec_popped next pop assert release,
    fun s e entry => hitsRegister_bit s entry⟩
  · constructor <;> simp
  · simp [Events.isSet, Events.isEnabled, pop_group]
  · simp
  · have popped : (popIncident s).events.popped = none := by rw [popIncident_events, pop_popped, empty]; rfl
    have shown (n : Nat) (r : BitVec 7)
        (h : readRegister (popIncident s) r = incidentRegister (popIncident s).events.popped n) :
        readRegister (popIncident s) r = 0#32 := by
      rw [h, popped]
      rfl
    exact ⟨shown 0 _ rfl, shown 1 _ rfl, shown 2 _ rfl, shown 3 _ rfl⟩
  · obtain ⟨inc0, inc1, inc2, inc3⟩ := popIncident_shows front
    obtain ⟨kind, port, line, detail, index, clear⟩ := inc0Word_fields _ (kind_code_lt i.kind) _ (port_code_lt i.port)
      i.line.isSome i.detail.isSome i.index.isSome
    intro w
    rw [show w = _ from inc0, inc0_eq]
    refine ⟨kind.trans ?_, port.trans ?_, line, detail, index, clear, inc1, inc2, inc3⟩
    · cases i.kind <;> rfl
    · rcases i.port with _ | _ | _ <;> rfl

end Sys2Proof.Machine
end

section
namespace Sys2Proof.Machine

/-! ### The register window (R169 to R173) -/

/-- A bit of a number in a register field. -/
theorem getLsbD_field (n k : Nat) {i : Nat} (bit : i < 32) :
    (word n <<< k).getLsbD i = (decide (k ≤ i) && n.testBit (i - k)) := by
  have inside : i - k < 32 := by omega
  by_cases below : i < k
  · simp only [BitVec.getLsbD_shiftLeft, below, Nat.not_le.mpr below, bit, decide_true, Bool.not_true, Bool.and_false,
      Bool.false_and, decide_false]
  · simp only [BitVec.getLsbD_shiftLeft, word, BitVec.getLsbD_ofNat, below, Nat.not_lt.mp below, bit, inside,
      decide_true,
      decide_false, Bool.not_false, Bool.true_and]

theorem getLsbD_flagField (b : Bool) (k : Nat) {i : Nat} (bit : i < 32) :
    (flagBit b <<< k).getLsbD i = (decide (i = k) && b) := by
  by_cases below : i < k
  · have apart : i ≠ k := by omega
    simp [BitVec.getLsbD_shiftLeft, below, apart]
  · have same : i - k = 0 ↔ i = k := by omega
    simp only [BitVec.getLsbD_shiftLeft, getLsbD_flagBit, below, bit, same, decide_true, decide_false, Bool.not_false,
      Bool.true_and]

/-- A code of `w` bits has no bit from `w` up. -/
theorem testBit_code {n w : Nat} (small : n < 2 ^ w) {j : Nat} (beyond : w ≤ j) : n.testBit j = false :=
  Nat.testBit_lt_two_pow (small.trans_le (Nat.pow_le_pow_right Nat.two_pos beyond))

/-- STATUS from the codes of its fields (R172). -/
def statusWord (busy : Bool) (phase service link lock : Nat) (suspended fault : Bool) : Word :=
  (flagBit busy <<< 31) ||| (word phase <<< 28) ||| (word service <<< 26) ||| (word link <<< 23) ||| (word lock <<< 21)
    ||| (flagBit suspended <<< 20) ||| (flagBit fault <<< 19)

/-- A field of a register, bit by bit. -/
theorem extractLsb'_ext {m start width n : Nat} {w : BitVec m}
    (same : ∀ i < width, w.getLsbD (start + i) = n.testBit i) : w.extractLsb' start width = BitVec.ofNat width n := by
  refine BitVec.eq_of_getLsbD_eq fun i hi => ?_
  rw [BitVec.getLsbD_extractLsb', same i hi, BitVec.getLsbD_ofNat]

/-- The bits of STATUS. -/
def statusBit (busy : Bool) (phase service link lock : Nat) (suspended fault : Bool) (i : Nat) : Bool :=
  (decide (i = 31) && busy) || (decide (28 ≤ i) && phase.testBit (i - 28)) ||
    (decide (26 ≤ i) && service.testBit (i - 26))
    || (decide (23 ≤ i) && link.testBit (i - 23)) || (decide (21 ≤ i) && lock.testBit (i - 21))
    || (decide (i = 20) && suspended) || (decide (i = 19) && fault)

theorem statusWord_bit (busy : Bool) (phase service link lock : Nat) (suspended fault : Bool) {i : Nat} (bit : i < 32) :
    (statusWord busy phase service link lock suspended fault).getLsbD i
      = statusBit busy phase service link lock suspended fault i := by
  simp only [statusWord, statusBit, BitVec.getLsbD_or, getLsbD_field _ _ bit, getLsbD_flagField _ _ bit]

theorem statusWord_fields (busy : Bool) {phase service link lock : Nat} (suspended fault : Bool) (hp : phase < 2 ^ 3)
    (hs : service < 2 ^ 2) (hl : link < 2 ^ 3) (hk : lock < 2 ^ 2) :
    let w := statusWord busy phase service link lock suspended fault
    w.getLsbD 31 = busy ∧ w.extractLsb' 28 3 = BitVec.ofNat 3 phase ∧ w.extractLsb' 26 2 = BitVec.ofNat 2 service
      ∧ w.extractLsb' 23 3 = BitVec.ofNat 3 link ∧ w.extractLsb' 21 2 = BitVec.ofNat 2 lock
      ∧ w.getLsbD 20 = suspended ∧ w.getLsbD 19 = fault ∧ w.extractLsb' 0 19 = 0#19 := by
  have p {j : Nat} := testBit_code hp (j := j)
  have s {j : Nat} := testBit_code hs (j := j)
  have l {j : Nat} := testBit_code hl (j := j)
  have k {j : Nat} := testBit_code hk (j := j)
  have field {start width n : Nat} (fits : start + width ≤ 32)
      (same : ∀ i < width, statusBit busy phase service link lock suspended fault (start + i) = n.testBit i) :
      (statusWord busy phase service link lock suspended fault).extractLsb' start width = BitVec.ofNat width n :=
    extractLsb'_ext fun i hi => (statusWord_bit _ _ _ _ _ _ _ (by omega)).trans (same i hi)
  refine ⟨(statusWord_bit _ _ _ _ _ _ _ (by decide)).trans ?_, field (by decide) fun i hi => ?_,
    field (by decide) fun i hi => ?_, field (by decide) fun i hi => ?_, field (by decide) fun i hi => ?_,
    (statusWord_bit _ _ _ _ _ _ _ (by decide)).trans ?_, (statusWord_bit _ _ _ _ _ _ _ (by decide)).trans ?_,
    field (by decide) fun i hi => ?_⟩
  case refine_1 => simp [statusBit, p, s, l, k]
  case refine_6 => simp [statusBit]
  case refine_7 => simp [statusBit]
  all_goals interval_cases i <;> simp [statusBit, s, l, k]

/-- The status byte from the codes of its fields (R170). -/
def statusByteWord (busy alert : Bool) (service phase : Nat) : Byte :=
  ((flagBit busy <<< 7) ||| (flagBit alert <<< 6) ||| (word service <<< 4) ||| word phase).setWidth 8

theorem statusByteWord_bit (busy alert : Bool) (service phase : Nat) {i : Nat} (bit : i < 8) :
    (statusByteWord busy alert service phase).getLsbD i
      = ((decide (i = 7) && busy) || (decide (i = 6) && alert) || (decide (4 ≤ i) && service.testBit (i - 4))
        || phase.testBit i) := by
  have inside : i < 32 := by omega
  have phaseBit : (word phase).getLsbD i = phase.testBit i := by simpa using getLsbD_field phase 0 inside
  simp only [statusByteWord, BitVec.getLsbD_setWidth, BitVec.getLsbD_or, getLsbD_field _ _ inside,
    getLsbD_flagField _ _ inside, phaseBit, bit, decide_true, Bool.true_and]

theorem statusByteWord_fields (busy alert : Bool) {service phase : Nat} (hs : service < 2 ^ 2) (hp : phase < 2 ^ 3) :
    let b := statusByteWord busy alert service phase
    b.getLsbD 7 = busy ∧ b.extractLsb' 4 2 = BitVec.ofNat 2 service ∧ b.getLsbD 3 = false
      ∧ b.extractLsb' 0 3 = BitVec.ofNat 3 phase := by
  have p {j : Nat} := testBit_code hp (j := j)
  have s {j : Nat} := testBit_code hs (j := j)
  refine ⟨(statusByteWord_bit _ _ _ _ (by decide)).trans ?_,
    extractLsb'_ext fun i hi => (statusByteWord_bit _ _ _ _ (by omega)).trans ?_,
    (statusByteWord_bit _ _ _ _ (by decide)).trans ?_,
    extractLsb'_ext fun i hi => (statusByteWord_bit _ _ _ _ (by omega)).trans ?_⟩
  case refine_1 => simp [p, s]
  case refine_3 => simp [p]
  all_goals interval_cases i <;> simp [p]

/-! #### What a read returns -/

theorem index_eq {r : BitVec 7} {n : Nat} (index : r.toNat = n) : r = BitVec.ofNat 7 n := by
  rw [← index, BitVec.ofNat_toNat, BitVec.setWidth_eq]

theorem readRegister_param (s : State) {r : BitVec 7} {n : Nat} (param : n < 8) (index : r.toNat = 4 + n) :
    readRegister s r = s.mgmt.params.getD n 0#32 := by
  obtain rfl := index_eq index
  interval_cases n <;> rfl

theorem readRegister_data (s : State) {r : BitVec 7} {n : Nat} (data : n < 8) (index : r.toNat = 12 + n) :
    readRegister s r = s.mgmt.rdata.getD n 0#32 := by
  obtain rfl := index_eq index
  interval_cases n <;> rfl

theorem readRegister_absent (s : State) {r : BitVec 7} (absent : 0x24 < r.toNat) : readRegister s r = 0#32 := by
  unfold readRegister
  split
  any_goals omega
  rfl

theorem phase_code_lt_eight (p : Phase) : p.code < 2 ^ 3 := by
  cases p <;> decide

theorem linkState_code_lt (l : LinkState) : l.code < 2 ^ 3 := by
  cases l <;> decide

theorem lockState_code_lt (l : LockState) : l.code < 2 ^ 2 := by
  cases l <;> decide

theorem identRegister_eq (s : State) : identRegister s = 0x4120#16 ++ 0x01#8 ++ 0#6 ++ s.pins.geom := by
  have fields : ∀ g : BitVec 2, 0x41200100#32 ||| g.setWidth 32 = 0x4120#16 ++ 0x01#8 ++ 0#6 ++ g := by decide
  exact fields s.pins.geom

/-! #### The rows that write frames are -/

/-- The value of a frame ends with its fifth byte. -/
theorem frameValue_low (b1 b2 b3 b4 : Byte) : (b1 ++ b2 ++ b3 ++ b4 : Word).setWidth 8 = b4 := by
  refine BitVec.eq_of_getLsbD_eq fun i hi => ?_
  rw [BitVec.getLsbD_setWidth, BitVec.getLsbD_append]
  simp [hi]

theorem rowOfWrite_register {busy maintEn : Bool} {i : BitVec 7} {v : Word}
    (row : i.toNat < 0x15 ∨ i.toNat = 0x1E ∨ (0x1F < i.toNat ∧ i.toNat ≠ 0x24)) (command : i.toNat ≠ 0x02) :
    rowOfWrite busy maintEn i v = .registerWrite i v := by
  unfold rowOfWrite
  split
  any_goals omega
  rfl

theorem rowOfWrite_command (busy maintEn : Bool) (v : Word) :
    rowOfWrite busy maintEn 0x02#7 v
      = if busy && v.setWidth 8 != 0x19#8 then .commandWriteWhileBusy (v.setWidth 8)
        else commandOfCode maintEn (v.setWidth 8) := rfl

theorem commandOfCode_unknown {maintEn : Bool} {code : BitVec 8} (unknown : code.toNat = 0 ∨ 0x19 < code.toNat) :
    commandOfCode maintEn code = .unknownCommand code := by
  unfold commandOfCode
  split
  any_goals omega
  rfl

theorem commandOfCode_wellFormed (maintEn : Bool) (code : BitVec 8) :
    (commandOfCode maintEn code).wellFormed = true := by
  by_cases unknown : code.toNat = 0 ∨ 0x19 < code.toNat
  · rw [commandOfCode_unknown unknown]
    simp only [Instr.wellFormed, namesCommand, Bool.not_eq_true', decide_eq_false_iff_not]
    omega
  · unfold commandOfCode
    split
    any_goals rfl
    exfalso
    grind

theorem rowOfWrite_wellFormed (busy maintEn : Bool) (i : BitVec 7) (v : Word) :
    (rowOfWrite busy maintEn i v).wellFormed = true := by
  by_cases register : (i.toNat < 0x15 ∨ i.toNat = 0x1E ∨ (0x1F < i.toNat ∧ i.toNat ≠ 0x24)) ∧ i.toNat ≠ 0x02
  · rw [rowOfWrite_register register.1 register.2]
    simp only [Instr.wellFormed, ownRow, Bool.not_eq_true', Bool.or_eq_false_iff, Bool.and_eq_false_iff,
      beq_eq_false_iff_ne,
      decide_eq_false_iff_not]
    omega
  · unfold rowOfWrite
    split
    case h_1 =>
      dsimp only
      split
      · next busy => exact (Bool.and_eq_true _ _ ▸ busy).2
      · exact commandOfCode_wellFormed _ _
    any_goals rfl
    exfalso
    grind

theorem writeFrame_short (busy maintEn : Bool) {f : List Byte} (short : f.length < 5) :
    writeFrame busy maintEn f = none := by
  unfold writeFrame
  split
  · simp at short
    omega
  · rfl

theorem writeFrame_write {b0 : Byte} (write : b0.getLsbD 7 = true) (busy maintEn : Bool) (b1 b2 b3 b4 : Byte)
    (more : List Byte) :
    writeFrame busy maintEn (b0 :: b1 :: b2 :: b3 :: b4 :: more)
      = some (rowOfWrite busy maintEn (b0.setWidth 7) (b1 ++ b2 ++ b3 ++ b4)) := if_pos write

theorem writeFrame_read {b0 : Byte} (read : b0.getLsbD 7 = false) (busy maintEn : Bool) (b1 b2 b3 b4 : Byte)
    (more : List Byte) : writeFrame busy maintEn (b0 :: b1 :: b2 :: b3 :: b4 :: more) = none :=
  if_neg (by rw [read]; exact Bool.false_ne_true)

/-- The parameters are changed by their own write and by PORST alone (R171). -/
theorem exec_params {c : Instr} {s t : State} (next : exec c s = .next t) (write : ∀ i v, c ≠ .registerWrite i v)
    (assert : c ≠ .porstAssert) (release : ∀ g, c ≠ .porstRelease g) : t.mgmt.params = s.mgmt.params := by
  by_cases keeps : keepsAll c = true
  · exact (exec_keptAll keeps s t next).params
  cases c
  case porstAssert => exact absurd rfl assert
  case porstRelease g => exact absurd rfl (release g)
  case registerWrite i v => exact absurd rfl (write i v)
  case imageReadComplete ecc records => exact (imageReadComplete_keptMost ecc records s t next).params
  case incidentPop v =>
    cases next
    split <;> rfl
  all_goals exact absurd rfl keeps

theorem exec_registerWrite {s : State} (out : s.pins.porst = false) (i : BitVec 7) (v : Word) :
    exec (.registerWrite i v) s = .next (writeRegister i v s) := onPart_out out _

theorem writeRegister_param {i : BitVec 7} (low : 4 ≤ i.toNat) (high : i.toNat ≤ 11) (v : Word) (s : State) :
    writeRegister i v s = { s with mgmt := { s.mgmt with params := s.mgmt.params.set (i.toNat - 4) v } } :=
  if_pos ⟨low, high⟩

theorem writeRegister_other {i : BitVec 7} (other : i.toNat < 4 ∨ 11 < i.toNat) (v : Word) (s : State) :
    writeRegister i v s = s := if_neg (by omega)

/-- What MISO carries, by the byte of the frame (R169, R170). -/
theorem misoByte_cases (selected captured now : State) (b0 : Byte) (n : Nat) :
    let miso := misoByte selected captured now b0 n
    (now.pins.porst = true → miso = some 0#8)
      ∧ (now.pins.porst = false → n = 0 → miso = some (statusByte selected))
      ∧ (now.pins.porst = false → captured.pins.porst = false → b0.getLsbD 7 = false → 1 ≤ n → n ≤ 4 →
        miso = some ((readRegister captured (b0.setWidth 7)).extractLsb' (8 * (4 - n)) 8))
      ∧ (4 < n → miso = some 0#8) := by
  refine ⟨fun held => by simp [misoByte, held], fun out first => by simp [misoByte, out, first],
    fun out released read low high => ?_, fun late => ?_⟩
  · interval_cases n <;> simp [misoByte, out, read, readFrame, released, -BitVec.getLsbD_eq_getElem]
  · unfold misoByte
    split
    · rfl
    · split
      any_goals omega
      rfl

theorem not_toNat {n : Nat} {i c : BitVec n} (h : i ≠ c) : i.toNat ≠ c.toNat := fun same =>
    h (BitVec.eq_of_toNat_eq same)

/-- The codes that name commands (R175). -/
theorem commandOfCode_named {maintEn : Bool} (r : BitVec 8 × Instr)
    (row : r ∈ ([(0x01#8, .readLimits), (0x02#8, .setFence), (0x03#8, .fenceLock), (0x04#8, .fenceUnlock maintEn),
      (0x05#8, .fenceFreeze), (0x06#8, .loadRegion), (0x07#8, .loadClass), (0x08#8, .saveSettings),
        (0x09#8, .loadRange),
      (0x0A#8, .loadTarget), (0x0B#8, .sequenceSet), (0x0C#8, .sequenceArm), (0x0D#8, .sequenceDisarm),
      (0x0E#8, .drainAll), (0x0F#8, .setReserve), (0x10#8, .retireLine), (0x11#8, .readRemap), (0x12#8, .readSlot),
      (0x13#8, .readCandidate), (0x14#8, .patrolStart), (0x15#8, .patrolStop), (0x16#8, .patrolStatus),
      (0x17#8, .setGrantLimit), (0x18#8, .formatArray), (0x19#8, .cancel)] : List (BitVec 8 × Instr))) :
    some (commandOfCode maintEn r.1) = some r.2 := by
  fin_cases row <;> rfl

/-- The values of STATUS and of the status byte come from the codes of the spec's tables (R172). -/
theorem readRegister_status (s : State) :
    readRegister s 0x01#7 = statusWord s.mgmt.busy.isSome s.metaCtl.phase.code (serviceState s).code (linkState s).code
      s.fence.lock.code (postingSuspended s) s.remap.fault := rfl

theorem statusByte_out {s : State} (out : s.pins.porst = false) :
    statusByte s = statusByteWord s.mgmt.busy.isSome (alert s) (serviceState s).code s.metaCtl.phase.code :=
  if_neg (by rw [out]; exact Bool.false_ne_true)

/-- Settles O12: writes, frames, reads and the shift out, part by part. -/
theorem framesWriteAndReadTheRegisters : Obligations.FramesWriteAndReadTheRegisters := by
  refine ⟨fun i v s out => ⟨fun other => ?_, fun low high => ⟨_, exec_registerWrite out i v, ?_, ?_, fun size => ?_⟩⟩,
    fun c s t next write assert release => exec_params next write assert release,
    fun busy maintEn f short => writeFrame_short busy maintEn short,
    fun busy maintEn b0 b1 b2 b3 b4 more => ⟨fun read => writeFrame_read read .., fun write => ?frames⟩,
    fun s => ?reads, misoByte_cases⟩
  · rw [exec_registerWrite out, writeRegister_other other]
  · rw [writeRegister_param low high]
    constructor <;> simp
  · rw [writeRegister_param low high]
  · rw [writeRegister_param low high,
      readRegister_param _ (n := i.toNat - 4) (by omega) (by omega)]
    have inside : i.toNat - 4 < s.mgmt.params.length := by omega
    simp [List.getD_eq_getElem?_getD, List.getElem?_set_self inside]
  case frames =>
    rw [writeFrame_write write]
    have low := frameValue_low b1 b2 b3 b4
    refine ⟨fun c row => Option.some.inj row ▸ rowOfWrite_wellFormed .., fun r row index => ?_, fun row command => ?_,
      fun index busy other => ?_, fun index free => ⟨fun r row code => ?_, fun unknown => ?_⟩⟩
    · rw [index]
      simp only [List.mem_cons, List.not_mem_nil, or_false] at row
      rcases row with rfl | rfl | rfl | rfl | rfl | rfl | rfl | rfl | rfl | rfl | rfl <;> rfl
    · rw [rowOfWrite_register ?_ (not_toNat command)]
      exact row.imp_right (Or.imp (congrArg BitVec.toNat) (And.imp_right not_toNat))
    · rw [index, rowOfWrite_command, low, if_pos (by simp [busy, other])]
    · have command : (busy && b4 != 0x19#8) = false := by
        rcases free with free | free <;> simp [free]
      rw [index, rowOfWrite_command, low, command, code]
      exact commandOfCode_named r row
    · have command : (busy && b4 != 0x19#8) = false := by
        rcases free with free | free <;> simp [free]
      rw [index, rowOfWrite_command, low, command, commandOfCode_unknown (unknown.imp_left (congrArg BitVec.toNat))]
      rfl
  case reads =>
    intro phase service link lock status
    have phase_eq : phase = s.metaCtl.phase.code := by dsimp only [phase]; cases s.metaCtl.phase <;> rfl
    have service_eq : service = (serviceState s).code := by dsimp only [service]; cases serviceState s <;> rfl
    have link_eq : link = (linkState s).code := by dsimp only [link]; cases linkState s <;> rfl
    have lock_eq : lock = s.fence.lock.code := by dsimp only [lock]; cases s.fence.lock <;> rfl
    obtain ⟨busy, phaseField, serviceField, linkField, lockField, suspended, fault, low⟩ :=
      statusWord_fields s.mgmt.busy.isSome (postingSuspended s) s.remap.fault (phase_code_lt_eight s.metaCtl.phase)
        (serviceState_code_lt (serviceState s)) (linkState_code_lt (linkState s)) (lockState_code_lt s.fence.lock)
    rw [phase_eq, service_eq, link_eq, lock_eq]
    refine ⟨identRegister_eq s, busy, phaseField, serviceField, linkField, lockField, suspended, fault, low, rfl, rfl,
      fun n small => ⟨readRegister_param s small ?_, readRegister_data s small ?_⟩, rfl, fun r row => ?_, rfl, rfl,
      fun i absent => readRegister_absent s absent, fun out => ?_⟩
    · rw [BitVec.toNat_ofNat, Nat.mod_eq_of_lt (by omega)]
    · rw [BitVec.toNat_ofNat, Nat.mod_eq_of_lt (by omega)]
    · fin_cases row <;> exact ⟨rfl, rfl⟩
    · obtain ⟨busyBit, serviceField, gap, phaseField⟩ := statusByteWord_fields s.mgmt.busy.isSome (alert s)
        (serviceState_code_lt (serviceState s)) (phase_code_lt_eight s.metaCtl.phase)
      have byte := statusByte_alert s
      rw [statusByte_out out] at byte ⊢
      exact ⟨busyBit, byte, serviceField, gap, phaseField⟩

end Sys2Proof.Machine
end

section
namespace Sys2Proof.Machine

/-- A command with nothing to do leaves the part as it is. -/
theorem onPart_idle {f : State → State} {s : State} (idle : f s = s) : onPart f s = .next s := by
  rw [onPart, idle, ite_self]

/-- On the part out of PORST a command leads to the state its meaning gives. -/
theorem onPart_leads {f : State → State} {s t : State} (out : s.pins.porst = false) (leads : f s = t) :
    onPart f s = .next t := by
  rw [onPart_out out, leads]

/-! ### Taking and sending (R2 to R5) -/

/-- The Line Path with one port's queue replaced (R2). -/
theorem setQueue_path (p : Port) (q : List Taken) (s : State) :
    (setQueue p q s).path =
      { s.path with queueA := (setQueue p q s).path.queueA, queueB := (setQueue p q s).path.queueB } := by
  cases p <;> rfl

/-- A port that is closed, or whose queue is full, takes nothing (R2, R5). -/
theorem takeTransaction_refused {p : Port} {tx : Transaction} {s : State}
    (shut : s.pins.srst = true ∨ 8 ≤ (queueOf s p).length) : takeTransaction p tx s = s := if_pos shut

theorem takeTransaction_taken {p : Port} {tx : Transaction} {s : State} (opened : s.pins.srst = false)
    (room : (queueOf s p).length < 8) :
    takeTransaction p tx s =
      setQueue p (queueOf s p ++ [{ serial := s.path.serial, tx := tx, stand := .taken }])
        { s with path := { s.path with serial := s.path.serial + 1 } } := by
  refine if_neg ?_
  rintro (closed | full)
  · simp [opened] at closed
  · exact absurd room (Nat.not_lt.mpr full)

/-- The decided answers at the old end of a queue, up to the first transaction that is not decided (R3). -/
theorem sendable_eq (sent rest : List Taken) (rs : List Response) (decided : sent.map (·.stand) = rs.map Stand.decided)
    (next : ∀ x ∈ rest.head?, ∀ r, x.stand ≠ .decided r) : sendable (sent ++ rest) = rs := by
  induction sent generalizing rs with
  | nil =>
    obtain rfl : rs = [] := List.map_eq_nil_iff.mp decided.symm
    cases rest with
    | nil => rfl
    | cons x rest =>
      have undecided := next x rfl
      cases h : x.stand with
      | decided r => exact absurd h (undecided r)
      | _ => simp [sendable, Taken.response, h]
  | cons x sent ih =>
    cases rs with
    | nil => simp at decided
    | cons r rs =>
      obtain ⟨stand, others⟩ := List.cons.inj decided
      simp [sendable, Taken.response, stand, ih rs others]

/-- A burst of answers leaves the queue (R2, R3). -/
theorem sendResponses_sent {p : Port} {s : State} {sent rest : List Taken} {r : Response} {rs : List Response}
    (queue : queueOf s p = sent ++ rest) (answers : sendable (queueOf s p) = r :: rs)
      (size : sent.length = rs.length + 1) :
    sendResponses p s = setSent p (r :: rs) (setQueue p rest s) := by
  have left : (sent ++ rest).drop (rs.length + 1) = rest := by rw [← size, List.drop_left]
  rw [sendResponses, answers, queue]
  simp only [left]

/-- Settles O13: a queue grows at its young end, and loses the decided answers at its old end. -/
theorem portsTakeAndAnswerInOrder : Obligations.PortsTakeAndAnswerInOrder := by
  refine ⟨fun p tx s out => ⟨fun shut => ?_, fun opened room => ?_⟩,
    fun p s sent rest rs out queue decided next => ⟨fun none => ?_, fun some => ?_⟩⟩
  · exact onPart_idle (takeTransaction_refused shut)
  · refine ⟨_, onPart_leads out (takeTransaction_taken opened room), ?_, by simp,
      fun q other => ?_, setQueue_path ..⟩
    · constructor <;> simp
    · rw [queueOf_setQueue_ne _ _ other]
      cases q <;> rfl
  · have idle : sendResponses p s = s := by
      rw [sendResponses, queue, sendable_eq sent rest rs decided next, none]
    exact onPart_idle idle
  · have answers := queue ▸ sendable_eq sent rest rs decided next
    have size : sent.length = rs.length := by simpa using congrArg List.length decided
    cases rs with
    | nil => exact absurd rfl some
    | cons r rs =>
      refine ⟨_, onPart_leads out (sendResponses_sent queue answers size), ?_, ?_, fun q other => ?_, ?_⟩
      · constructor <;> cases p <;> simp [setSent]
      · cases p <;> rfl
      · cases p with
        | a =>
          cases q with
          | a => exact absurd rfl other
          | b => rfl
        | b =>
          cases q with
          | a => rfl
          | b => exact absurd rfl other
      · cases p <;> rfl

/-! ### Steps 1 to 4 (R5, R9 to R12) -/

/-- Step 2: the transactions that are not well-formed (R10). -/
theorem txFormed_iff (tx : Transaction) :
    txFormed tx = true ↔ ¬(tx.size = 0 ∨ 64 < tx.size ∨ 64 < tx.addr.toNat % 64 + tx.size) := by
  rw [txFormed, decide_eq_true_iff, txOffset, lineOffset]
  omega

/-- A transaction is refused with its flag posted, and no other block is touched (R10 to R12). -/
theorem refuse_post (p : Port) (t : Taken) (code : ResponseCode) (f : Flag) (s : State) :
    refuse p t code (post f s) = { s with path := turnedAway p t code s.path, events := s.events.post f } :=
  refuse_eq p t code (post f s)

/-- Settles O14: an ill-formed transaction fails the test of step 2. -/
theorem malformedTransactionsAreAnsweredMalformed : Obligations.MalformedTransactionsAreAnsweredMalformed := by
  refine ⟨txFormed_iff, fun p t s here serving bad => ?_⟩
  have formed : txFormed t.tx = false := Bool.eq_false_iff.mpr fun h => (txFormed_iff t.tx).mp h bad
  rw [exec_intake here, ← refuse_post]
  simp [checkTransaction, serving, formed]

/-- The four port service states (R5). -/
theorem serviceState_iff (s : State) :
    (serviceState s = .inService ↔
      s.pins.srst = false ∧ s.path.drainWait = false
        ∧ (s.metaCtl.phase = .readReady ∨ s.metaCtl.phase = .repairing ∨ s.metaCtl.phase = .fullReady))
      ∧ (serviceState s = .closed ↔ s.pins.srst = true)
      ∧ (serviceState s = .resetDrain ↔ s.pins.srst = false ∧ s.path.drainWait = true)
      ∧ (serviceState s = .start ↔
        s.pins.srst = false ∧ s.path.drainWait = false
          ∧ (s.metaCtl.phase = .geometryFault ∨ s.metaCtl.phase = .loading ∨ s.metaCtl.phase = .unformatted
            ∨ s.metaCtl.phase = .formatting)) := by
  cases srst : s.pins.srst
  · cases wait : s.path.drainWait
    · cases phase : s.metaCtl.phase <;> simp [serviceState, srst, wait, phase]
    · simp [serviceState, srst, wait]
  · simp [serviceState, srst]

/-- Step 4 takes the access flags of the first enabled region that holds the line (R39, R40). -/
theorem allows_region {s : State} {line : Nat} {before after : List RegionEntry} {r : RegionEntry}
    (regions : s.tables.regions = before ++ r :: after) (others : ∀ x ∈ before, regionCovers x line = false)
    (covers : regionCovers r line = true) (p : Port) (k : Access) :
    (regionLookup s line).allows p k =
      match p, k with
      | .a, .read => r.aRead
      | .a, .write => r.aWrite
      | .b, .read => r.bRead
      | .b, .write => r.bWrite := by
  rw [regionLookup, regions, find_first _ before r after others covers]
  cases p <;> cases k <;> rfl

/-- Settles O15: the checks of steps 1, 3 and 4, each on a transaction that has passed those before it. -/
theorem serviceFenceAndAccessRefusals : Obligations.ServiceFenceAndAccessRefusals := by
  refine ⟨fun p s => ?_, fun p t s here away => ?_, fun p t s here serving formed => ⟨fun beyond => ?_, ?_⟩⟩
  · obtain ⟨inService, closed, drain, start⟩ := serviceState_iff s
    refine ⟨inService, closed, drain, start, by simp [ready], fun none => ?_⟩
    have idle : runIntake p s = s := by
      unfold runIntake
      cases found : atIntake s p with
      | none => rfl
      | some t => exact if_neg (none t found)
    exact onPart_idle idle
  · rw [exec_intake here, checkTransaction, if_pos away, refuse_eq]
  · have above : s.fence.current ≤ txLine t.tx := beyond
    rw [exec_intake here, ← refuse_post]
    simp [checkTransaction, serving, formed, above]
  · intro before after r below regions others enabled first last denied
    have inFence : ¬s.fence.current ≤ txLine t.tx := Nat.not_le.mpr below
    have covers : regionCovers r (txLine t.tx) = true := (regionCovers_iff r _).mpr ⟨enabled, first, last⟩
    have none : ∀ x ∈ before, regionCovers x (txLine t.tx) = false := fun x hx =>
      Bool.eq_false_iff.mpr fun covers => others x hx ((regionCovers_iff x _).mp covers)
    have refused : (regionLookup s (txLine t.tx)).allows p t.tx.kind = false :=
      (allows_region regions none covers p t.tx.kind).trans denied
    rw [exec_intake here, ← refuse_post]
    simp [checkTransaction, serving, formed, inFence, refused]

end Sys2Proof.Machine
end

section
namespace Sys2Proof.Machine

/-- A posted flag with its incident depends on the Event Controller alone, and changes it alone (R182, R183). -/
theorem writeIncident_post_eq (i : Incident) (f : Flag) {s t : State} (same : t.events = s.events) :
    writeIncident i (post f t) = { t with events := (writeIncident i (post f s)).events } := by
  have posted : (post f t).events = (post f s).events := by simp [same]
  unfold writeIncident
  rw [posted]
  split <;> simp [post, same]

/-! ### Step 5, the range watches (R145, R146) -/

/-- A transaction that no range watch matches is not noted (R146). -/
theorem watchStep_unmatched {p : Port} {tx : Transaction} {s : State}
    (unmatched : ∀ x ∈ s.watch.ranges, rangeMatches p tx x = false) : watchStep p tx s = s := by
  have none : s.watch.ranges.findIdx? (rangeMatches p tx) = none := List.findIdx?_eq_none_iff.mpr unmatched
  rw [watchStep, none]

/-- A match sets the hit flags, posts WATCH_HIT and records the lowest matching entry and its tag (R146). -/
theorem watchStep_matched {p : Port} {tx : Transaction} {s : State} {before after : List RangeWatch} {r : RangeWatch}
    (ranges : s.watch.ranges = before ++ r :: after) (others : ∀ x ∈ before, rangeMatches p tx x = false)
    (here : rangeMatches p tx r = true) :
    watchStep p tx s =
      { s with
        watch :=
          { s.watch with
            ranges := s.watch.ranges.map fun x => if rangeMatches p tx x = true then { x with hit := true } else x }
        events :=
          (writeIncident
            { kind := .watchHit, line := some (tx.addr.toNat / 64), port := some p, detail := some r.tag
              index := some before.length }
            (post .watchHit s)).events } := by
  have found : s.watch.ranges.findIdx? (rangeMatches p tx) = some before.length := by
    rw [ranges, findIdx_first _ _ _ _ others here]
  have entry : (s.watch.ranges.getD before.length RangeWatch.cleared) = r := by simp [ranges]
  rw [watchStep, found]
  simp only [entry]
  exact writeIncident_post_eq _ _ rfl

theorem watchRefuses_iff (p : Port) (tx : Transaction) (s : State) :
    watchRefuses p tx s = true ↔ ∃ x ∈ s.watch.ranges, rangeMatches p tx x = true ∧ x.action = .refuse := by
  simp [watchRefuses]

theorem watchRefuses_false_iff (p : Port) (tx : Transaction) (s : State) :
    watchRefuses p tx s = false ↔ ∀ x ∈ s.watch.ranges, rangeMatches p tx x = true → x.action ≠ .refuse := by
  simp [watchRefuses]

/-- Settles O16: the two cases of step 5, whether or not it refuses. -/
theorem watchRefusalSetsHitsAndRecords : Obligations.WatchRefusalSetsHitsAndRecords := by
  refine ⟨rangeMatches_iff, fun p t s before after r here admitted ranges others first refuses => ?_,
    fun p t s => ⟨?_, rfl, watchStep_unmatched, fun before after r => watchStep_matched⟩⟩
  · have refused := (watchRefuses_iff p t.tx s).mpr refuses
    rw [exec_intake_admitted here admitted, checkWatches, if_pos refused, refuse_eq,
      watchStep_matched ranges others first]
  · rw [Passed, watchRefuses_false_iff]

/-! ### Step 6, the sequence watch (R149 to R151) -/

theorem targetMatches_iff (tx : Transaction) (t : Target) :
    targetMatches tx t = true ↔
      t.kind = tx.kind ∧ tx.addr.toNat ≤ t.addr ∧ t.addr ≤ tx.addr.toNat + tx.size - 1 := by
  rw [targetMatches, Bool.and_eq_true, Bool.and_eq_true, beq_iff_eq, decide_eq_true_iff, decide_eq_true_iff, and_assoc]
  rfl

theorem sequenceStep_disarmed {p : Port} {tx : Transaction} {s : State} (disarmed : s.watch.armed = false) :
    sequenceStep p tx s = s := by
  simp [sequenceStep, disarmed]

section
variable {p : Port} {tx : Transaction} {s : State}

/-- The target awaited is met, with more to come: the watch advances (R150). -/
theorem sequenceStep_advances (armed : s.watch.armed = true) (met : targetMatches tx (targetAt s s.watch.index) = true)
    (more : s.watch.index + 1 < s.watch.count) : sequenceStep p tx s = setIndex (s.watch.index + 1) s := by
  simp [sequenceStep, armed, met, more]

/-- The last target is met: the sequence completes (R150). -/
theorem sequenceStep_completes (armed : s.watch.armed = true) (met : targetMatches tx (targetAt s s.watch.index) = true)
    (last : s.watch.count ≤ s.watch.index + 1) :
    sequenceStep p tx s =
      { s with
        watch := { s.watch with index := 0 }
        events :=
          (writeIncident
            { kind := .sequenceComplete, line := some (txLine tx), port := some p
              detail := some (targetAt s (s.watch.count - 1)).tag, index := none }
            (post .sequenceComplete s)).events } := by
  have completed := writeIncident_post_eq
    { kind := .sequenceComplete, line := some (txLine tx), port := some p
      detail := some (targetAt s (s.watch.count - 1)).tag, index := none }
    .sequenceComplete (s := s) (t := setIndex 0 s) rfl
  rw [sequenceStep, armed, met, if_neg (by decide), if_pos rfl, if_neg (Nat.not_lt.mpr last), completed]
  rfl

/-- Another target is met first: the sequence breaks (R151). -/
theorem sequenceStep_breaks {j : Nat} (armed : s.watch.armed = true)
    (unmet : targetMatches tx (targetAt s s.watch.index) = false) (within : j < s.watch.count)
    (met : targetMatches tx (targetAt s j) = true) (first : ∀ k, k < j → targetMatches tx (targetAt s k) = false) :
    sequenceStep p tx s =
      { s with
        watch := { s.watch with index := 0 }
        events :=
          (writeIncident
            { kind := .sequenceBreak, line := some (txLine tx), port := some p, detail := some (targetAt s j).tag
              index := some s.watch.index }
            (post .sequenceBreak s)).events } := by
  have found : ((List.range s.watch.count).find? fun j => targetMatches tx (targetAt s j)) = some j := by
    rw [List.find?_range_eq_some]
    exact ⟨met, List.mem_range.mpr within, fun k hk => by simp [first k hk]⟩
  have broken := writeIncident_post_eq
    { kind := .sequenceBreak, line := some (txLine tx), port := some p, detail := some (targetAt s j).tag
      index := some s.watch.index }
    .sequenceBreak (s := s) (t := setIndex 0 s) rfl
  rw [sequenceStep, armed, unmet, found, if_neg (by decide), if_neg (by decide)]
  exact broken

/-- No target is met: the sequence watch stays (R151). -/
theorem sequenceStep_stays (armed : s.watch.armed = true)
    (unmet : targetMatches tx (targetAt s s.watch.index) = false)
    (others : ∀ j, j < s.watch.count → targetMatches tx (targetAt s j) = false) : sequenceStep p tx s = s := by
  have found : ((List.range s.watch.count).find? fun j => targetMatches tx (targetAt s j)) = none := by
    simpa using others
  simp [sequenceStep, armed, unmet, found]

end

/-- Step 7: under PWARN a WRITE that has passed the watches is answered RETRY (R14). -/
theorem exec_intake_warned {p : Port} {t : Taken} {s : State} (here : AtIntake s p t) (write : t.tx.kind = .write)
    (warned : s.pins.pwarn = true) (passed : Passed s p t) :
    exec (.intake p) s = .next { watched p t s with path := turnedAway p t .retry s.path } := by
  rw [exec_intake_passed here passed]
  simp [write, warned, refuse_eq]

/-- A transaction that no range watch matches passes step 5 with nothing noted (R146). -/
theorem passed_of_unmatched {p : Port} {t : Taken} {s : State} (admitted : Admitted s p t)
    (unmatched : ∀ r ∈ s.watch.ranges, rangeMatches p t.tx r = false) :
    Passed s p t ∧ watched p t s = sequenceStep p t.tx s := by
  refine ⟨⟨admitted, (watchRefuses_false_iff p t.tx s).mpr fun r hr hit => ?_⟩, ?_⟩
  · exact absurd hit (by simp [unmatched r hr])
  · rw [watched, watchStep_unmatched unmatched]

/-- Settles O17: the five cases of step 6, and RETRY after it. -/
theorem sequenceWatchIsTestedBeforeThePowerWarning : Obligations.SequenceWatchIsTestedBeforeThePowerWarning := by
  unfold Obligations.SequenceWatchIsTestedBeforeThePowerWarning
  intro tested
  have step (p : Port) (tx : Transaction) (s : State) : tested p tx s (sequenceStep p tx s) := by
    refine ⟨fun disarmed => ?_, fun armed met more => ?_, fun armed met last => ?_,
      fun j armed unmet within met first => ?_,
      fun armed unmet others => ?_⟩
    · rw [sequenceStep_disarmed disarmed]
      exact ⟨rfl, rfl⟩
    · rw [sequenceStep_advances armed met more]
      exact ⟨rfl, rfl⟩
    · rw [sequenceStep_completes armed met last]
      exact ⟨rfl, rfl⟩
    · rw [sequenceStep_breaks armed unmet within met first]
      exact ⟨rfl, rfl⟩
    · rw [sequenceStep_stays armed unmet others]
      exact ⟨rfl, rfl⟩
  refine ⟨fun p tx s => ⟨targetMatches_iff tx, ?_, step p tx s⟩, fun p t s here write warned =>
    ⟨exec_intake_warned here write warned, fun admitted unmatched => ?_⟩⟩
  · constructor <;> simp
  · obtain ⟨passed, same⟩ := passed_of_unmatched admitted unmatched
    refine ⟨_, exec_intake_warned here write warned passed, ?_, rfl, ?_⟩
    · constructor <;> simp
    · rw [same]
      exact step p t.tx s

end Sys2Proof.Machine
end

section
namespace Sys2Proof.Machine

/-! ### Claim requests (R92, R93) -/

/-- A claim request leaves the records of the other lines as they read. -/
theorem claimRecord_requestClaim_ne {line other : Nat} (k : ClaimKind) (o : Claimant) (s : State)
    (apart : other ≠ line) : claimRecord (requestClaim line k o s) other = claimRecord s other := by
  rw [requestClaim]
  split <;> exact claimRecord_setClaims_ne _ _ apart

/-- A request that is granted at once finds no request waiting (R93). -/
theorem claimRecord_granted {line : Nat} {k : ClaimKind} {s : State} (free : claimFree s line k = true) (o : Claimant) :
    claimRecord (requestClaim line k o s) line =
      { holders := (claimRecord s line).holders.add k o, waiting := [] } := by
  have none : (claimRecord s line).waiting = [] := by
    rw [claimFree, Bool.and_eq_true, List.isEmpty_iff] at free
    exact free.1
  rw [claimRecord_requestClaim, grantedAtOnce_eq, if_pos free]
  simp only [none]

/-- Any other request joins the end of the waiting ones (R93). -/
theorem claimRecord_waits {line : Nat} {k : ClaimKind} {s : State} (claimed : claimFree s line k = false)
    (o : Claimant) :
    claimRecord (requestClaim line k o s) line =
      { claimRecord s line with waiting := (claimRecord s line).waiting ++ [{ kind := k, owner := o }] } := by
  rw [claimRecord_requestClaim, grantedAtOnce_eq, if_neg (by simp [claimed])]

/-- What a claim record reads as is a matter of the claims alone. -/
theorem claimRecord_congr {s t : State} (same : t.link.claims = s.link.claims) (line : Nat) :
    claimRecord t line = claimRecord s line := by
  rw [claimRecord, claimRecord, same]

theorem claimFree_congr {s t : State} (same : t.link.claims = s.link.claims) (line : Nat) (k : ClaimKind) :
    claimFree t line k = claimFree s line k := by
  rw [claimFree, claimFree, claimRecord_congr same]

/-! ### The forwarding snapshot (R58) -/

/-- The first entry of a line in a state (R54). -/
def heldEntry (s : State) (line : Nat) (st : EntryState) : Option SystemEntry :=
  s.buffer.entries.find? fun e => decide (e.line = line ∧ e.state = st)

theorem heldEntry_pending (s : State) (line : Nat) : heldEntry s line .pending = pendingEntry s line := by
  simp only [heldEntry, pendingEntry, Bool.decide_and, Bool.beq_eq_decide_eq]

theorem heldEntry_draining (s : State) (line : Nat) : heldEntry s line .draining = lineDraining s line := by
  simp only [heldEntry, lineDraining, Bool.decide_and, Bool.beq_eq_decide_eq]

/-- An entry of the line in this state gives byte `i` (R58). -/
def Gives (s : State) (line : Nat) (st : EntryState) (i : Nat) : Prop :=
  ∃ e, heldEntry s line st = some e ∧ e.mask.getLsbD i = true

/-- The bytes of the snapshot, and where each comes from (R58). -/
theorem forwarding_snapshot (s : State) (line : Nat) :
    (∀ i, (forwardMask s line).getLsbD i = true ↔ Gives s line .pending i ∨ Gives s line .draining i)
      ∧ (∀ i e, i < 64 → heldEntry s line .pending = some e → e.mask.getLsbD i = true →
        byteAt (forwardData s line) i = byteAt e.data i)
      ∧ ∀ i e, i < 64 → ¬Gives s line .pending i → heldEntry s line .draining = some e → e.mask.getLsbD i = true →
        byteAt (forwardData s line) i = byteAt e.data i := by
  simp only [Gives, heldEntry_pending, heldEntry_draining]
  exact ⟨getLsbD_forwardMask s line, fun i e => byteAt_forwardData_pending,
    fun i e => byteAt_forwardData_draining⟩

theorem forwardMask_congr {s t : State} (same : t.buffer = s.buffer) (line : Nat) :
    forwardMask t line = forwardMask s line := by
  simp only [forwardMask, pendingEntry, lineDraining, same]

theorem forwardData_congr {s t : State} (same : t.buffer = s.buffer) (line : Nat) :
    forwardData t line = forwardData s line := by
  simp only [forwardData, pendingEntry, lineDraining, same]

theorem poisonedFor_congr {s t : State} (same : t.remap = s.remap) (line : Nat) (asked : Mask) :
    poisonedFor t line asked = poisonedFor s line asked := by
  simp only [poisonedFor, dataState, remapEntry, same]

theorem mappedLine_congr {s t : State} (remap : t.remap = s.remap) (fence : t.fence = s.fence) (line : Nat) :
    mappedLine t line = mappedLine s line := by
  simp only [mappedLine, remapEntry, spareLine, remap, fence]

/-! ### Step 8 for a READ (R15 to R17) -/

/-- The bytes a READ needs from the array (R15). -/
def uncoveredAt (t : Taken) (s : State) : Mask :=
  spanMask (txOffset t.tx) t.tx.size &&& ~~~forwardMask s (txLine t.tx)

/-- The system read that a READ becomes when it leaves intake (R15). -/
def readAt (p : Port) (t : Taken) (s : State) : SystemRead :=
  { serial := t.serial, port := p, line := txLine t.tx, offset := txOffset t.tx, size := t.tx.size
    covered := spanMask (txOffset t.tx) t.tx.size &&& forwardMask s (txLine t.tx)
    snapshot := forwardData s (txLine t.tx), answered := true }

theorem readAt_uncovered (p : Port) (t : Taken) (s : State) : (readAt p t s).uncovered = uncoveredAt t s := by
  simp only [SystemRead.uncovered, readAt, uncoveredAt]
  refine BitVec.eq_of_getLsbD_eq fun i hi => ?_
  simp only [BitVec.getLsbD_and, BitVec.getLsbD_not, hi]
  cases (spanMask (txOffset t.tx) t.tx.size).getLsbD i <;> simp

/-- The READ leaves intake and asks for its SHARED claim (R15, R17). -/
def sharedAsked (p : Port) (t : Taken) (s : State) : State :=
  requestClaim (txLine t.tx) .shared (.read t.serial)
    (setStand p t.serial .reading { s with path := { s.path with reads := s.path.reads ++ [readAt p t s] } })

/-- What a READ does at step 8, in the order of its four outcomes (R15, R16). -/
theorem intakeRead_eq (p : Port) (t : Taken) (s : State) :
    intakeRead p t s =
      if uncoveredAt t s = Mask.empty then
        answer p t.serial { code := .ok, data := slice (forwardData s (txLine t.tx)) (txOffset t.tx) t.tx.size } s
      else if poisonedFor s (txLine t.tx) (uncoveredAt t s) then refuse p t .poison s
      else if s.link.unavailable then refuse p t .unavailable s
      else if claimFree s (txLine t.tx) .shared then readGranted (readAt p t s) (sharedAsked p t s)
      else sharedAsked p t s := by
  rw [← readAt_uncovered p t s, ← grantedAtOnce_eq]
  rfl

/-- A READ that has passed the watches comes to step 8. -/
theorem exec_intake_read {p : Port} {t : Taken} {s : State} (here : AtIntake s p t) (passed : Passed s p t)
    (read : t.tx.kind = .read) : exec (.intake p) s = .next (intakeRead p t (watched p t s)) := by
  rw [exec_intake_passed here passed, if_pos read]

theorem watched_buffer (p : Port) (t : Taken) (s : State) : (watched p t s).buffer = s.buffer := by simp

theorem watched_remap (p : Port) (t : Taken) (s : State) : (watched p t s).remap = s.remap := by simp

theorem watched_link (p : Port) (t : Taken) (s : State) : (watched p t s).link = s.link := by simp

theorem watched_path (p : Port) (t : Taken) (s : State) : (watched p t s).path = s.path := by simp

theorem claimFree_watched (p : Port) (t : Taken) (s : State) (line : Nat) (k : ClaimKind) :
    claimFree (watched p t s) line k = claimFree s line k := claimFree_congr (by rw [watched_link]) line k

theorem claimRecord_watched (p : Port) (t : Taken) (s : State) (line : Nat) :
    claimRecord (watched p t s) line = claimRecord s line := claimRecord_congr (by rw [watched_link]) line

/-- The watches decide nothing of what step 8 looks at. -/
theorem uncoveredAt_watched (p : Port) (t : Taken) (s : State) : uncoveredAt t (watched p t s) = uncoveredAt t s := by
  rw [uncoveredAt, uncoveredAt, forwardMask_congr (watched_buffer p t s)]

theorem readAt_watched (p : Port) (t : Taken) (s : State) : readAt p t (watched p t s) = readAt p t s := by
  rw [readAt, readAt, forwardMask_congr (watched_buffer p t s), forwardData_congr (watched_buffer p t s)]

/-- Settles O18: the first three outcomes of step 8 for a READ. -/
theorem readsAnsweredAtIntake : Obligations.ReadsAnsweredAtIntake := by
  refine ⟨fun s line => forwarding_snapshot s line, poisonedFor_iff, fun offset size i => getLsbD_spanMask offset size,
    fun d offset size => rfl, fun p t s here passed read => ?_⟩
  have outcome := exec_intake_read here passed read
  rw [intakeRead_eq, uncoveredAt_watched, poisonedFor_congr (watched_remap p t s), watched_link,
    forwardData_congr (watched_buffer p t s), answer_eq, refuse_eq, refuse_eq, watched_path] at outcome
  refine ⟨fun (covered : uncoveredAt t s = Mask.empty) => ?_,
    fun (uncovered : uncoveredAt t s ≠ Mask.empty) (lost : poisonedFor s (txLine t.tx) (uncoveredAt t s) = true) => ?_,
    fun (uncovered : uncoveredAt t s ≠ Mask.empty) (known : poisonedFor s (txLine t.tx) (uncoveredAt t s) = false)
      unavailable => ?_⟩
  · rw [outcome, if_pos covered]
    rfl
  · rw [outcome, if_neg uncovered, if_pos lost]
  · rw [outcome, if_neg uncovered, if_neg (by simp [known]), if_pos unavailable]

/-- Leaving intake and asking for a claim changes the Line Path and the claims (R15, R93). -/
theorem sharedAsked_frame (p : Port) (t : Taken) (s : State) :
    Keeps [.path, .link] s (sharedAsked p t s)
      ∧ (sharedAsked p t s).path =
          restand p t.serial .reading { s.path with reads := s.path.reads ++ [readAt p t s] }
      ∧ (sharedAsked p t s).link = { s.link with claims := (sharedAsked p t s).link.claims } := by
  refine ⟨by constructor <;> simp [sharedAsked], ?_, ?_⟩
  · simp [sharedAsked, setStand_path]
  · rw [sharedAsked, requestClaim_link]
    simp

/-- The claim records after a READ has asked for its claim (R93). -/
theorem sharedAsked_claims (p : Port) (t : Taken) (s : State) :
    (∀ l, l ≠ txLine t.tx → claimRecord (sharedAsked p t s) l = claimRecord s l)
      ∧ (claimFree s (txLine t.tx) .shared = true →
        claimRecord (sharedAsked p t s) (txLine t.tx) =
          { holders := (claimRecord s (txLine t.tx)).holders.add .shared (.read t.serial), waiting := [] })
      ∧ (claimFree s (txLine t.tx) .shared = false →
        claimRecord (sharedAsked p t s) (txLine t.tx) =
          { claimRecord s (txLine t.tx) with
            waiting := (claimRecord s (txLine t.tx)).waiting ++ [{ kind := .shared, owner := .read t.serial }] }) := by
  have before : (setStand p t.serial .reading
      { s with path := { s.path with reads := s.path.reads ++ [readAt p t s] } }).link.claims = s.link.claims := by simp
  refine ⟨fun l other => ?_, fun free => ?_, fun claimed => ?_⟩
  · rw [sharedAsked, claimRecord_requestClaim_ne _ _ _ other, claimRecord_congr before]
  · rw [sharedAsked, claimRecord_granted ((claimFree_congr before _ _).trans free), claimRecord_congr before]
  · rw [sharedAsked, claimRecord_waits ((claimFree_congr before _ _).trans claimed), claimRecord_congr before]

/-- A READ granted at once whose bytes can be returned truthfully places its ARRAY_READ (R17). -/
theorem readGranted_sharedAsked {p : Port} {t : Taken} {s : State}
    (known : poisonedFor s (txLine t.tx) (uncoveredAt t s) = false) :
    readGranted (readAt p t s) (sharedAsked p t s) =
      placeRead t.serial (mappedLine s (txLine t.tx)) (sharedAsked p t s) := by
  obtain ⟨keeps, -, -⟩ := sharedAsked_frame p t s
  have remap := keeps.remap (by decide)
  rw [readGranted, readAt_uncovered, poisonedFor_congr remap, if_neg (by simpa [readAt] using known),
    mappedLine_congr remap (keeps.fence (by decide))]
  rfl

theorem placeRead_link (serial line : Nat) (s : State) :
    (placeRead serial line s).link =
      { s.link with
        work :=
          insertRead
            { purpose := .systemRead serial, arrayLine := line, action := .read, first := false, issued := false }
            serial s.link.work } := rfl

theorem claimRecord_placeRead (serial line : Nat) (s : State) (l : Nat) :
    claimRecord (placeRead serial line s) l = claimRecord s l := rfl

/-- The last two outcomes of step 8 for a READ (R17). -/
theorem exec_intake_asks {p : Port} {t : Taken} {s : State} (here : AtIntake s p t) (passed : Passed s p t)
    (read : t.tx.kind = .read) (uncovered : uncoveredAt t s ≠ Mask.empty)
    (known : poisonedFor s (txLine t.tx) (uncoveredAt t s) = false) (available : s.link.unavailable = false) :
    exec (.intake p) s =
      .next
        (if claimFree s (txLine t.tx) .shared then
          placeRead t.serial (mappedLine s (txLine t.tx)) (sharedAsked p t (watched p t s))
        else sharedAsked p t (watched p t s)) := by
  have judged := (poisonedFor_congr (watched_remap p t s) (txLine t.tx) (uncoveredAt t s)).trans known
  have line := mappedLine_congr (watched_remap p t s) (by simp) (txLine t.tx)
  rw [exec_intake_read here passed read, intakeRead_eq, uncoveredAt_watched, if_neg uncovered,
    if_neg (by simp [judged]),
    watched_link, if_neg (by simp [available]), claimFree_watched,
    readGranted_sharedAsked (by rw [uncoveredAt_watched]; exact judged), line]

/-- Settles O19: the request, and the ARRAY_READ of one that is granted at once. -/
theorem readsRequestASharedClaim : Obligations.ReadsRequestASharedClaim := by
  refine ⟨fun s line => forwarding_snapshot s line, poisonedFor_iff, fun p t s here passed read => ?_⟩
  intro line offset asked uncovered known available
  have outcome := exec_intake_asks here passed read uncovered known available
  obtain ⟨keeps, path, link⟩ := sharedAsked_frame p t (watched p t s)
  obtain ⟨others, granted, waits⟩ := sharedAsked_claims p t (watched p t s)
  rw [watched_link] at link
  simp only [readAt_watched, watched_path] at path
  simp only [claimFree_watched, claimRecord_watched] at others granted waits
  cases free : claimFree s (txLine t.tx) .shared with
  | false =>
    rw [free, if_neg (by decide)] at outcome
    refine ⟨_, outcome, ?_, keeps.watch (by decide), keeps.events (by decide), path, by rw [link], ?_, by rw [link],
      by rw [link], others, fun granted => ?_, fun _ => ?_⟩
    · constructor <;> simp [sharedAsked]
    · rw [link, available]
    · exact absurd (free.symm.trans granted) (by decide)
    · rw [show line = txLine t.tx from rfl, waits free, link]
      exact ⟨rfl, rfl, rfl⟩
  | true =>
    rw [if_pos free] at outcome
    refine ⟨_, outcome, ?_, ?_, ?_, ?_, ?_, ?_, ?_, ?_, fun l other => ?_, fun _ => ?_,
      fun waits => absurd (free.symm.trans waits) (by decide)⟩
    · constructor <;> simp [sharedAsked]
    · simpa using keeps.watch (by decide)
    · simpa using keeps.events (by decide)
    · obtain ⟨-, same, -⟩ := placeRead_frame t.serial (mappedLine s (txLine t.tx)) (sharedAsked p t (watched p t s))
      exact same.trans path
    · rw [placeRead_link, link]
    · rw [placeRead_link, link, available]
    · rw [placeRead_link, link]
    · rw [placeRead_link, link]
    · exact others l other
    · rw [show line = txLine t.tx from rfl, claimRecord_placeRead, granted free, placeRead_link, link]
      exact ⟨rfl, rfl, rfl⟩

end Sys2Proof.Machine
end

section
namespace Sys2Proof.Machine

/-! ### Step 8 for a WRITE (R19, R55 to R57, R72) -/

/-- A WRITE that has passed the watches and finds no power warning comes to step 8. -/
theorem exec_intake_write {p : Port} {t : Taken} {s : State} (here : AtIntake s p t) (passed : Passed s p t)
    (write : t.tx.kind = .write) (calm : s.pins.pwarn = false) :
    exec (.intake p) s =
      .next
        (if postingLine s (txLine t.tx) then intakePosted p t (watched p t s)
        else intakeThrough p t (watched p t s)) := by
  have posting : ((classEntry (watched p t s) (regionLookup s (txLine t.tx)).cls).mode = .posted
      ∧ !postingSuspended (watched p t s)) ↔ postingLine s (txLine t.tx) = true := by
    simp [postingLine, lineClass, classEntry, postingSuspended, freeCount]
  rw [exec_intake_passed here passed, if_neg (by simp [write]), if_neg (by simp [calm])]
  simp only [intakeWrite, posting]

/-- The capacity left is judged from the buffer, the jobs in flight and an open reserve wait (R52). -/
theorem systemEntryFree_congr {s t : State} (buffer : t.buffer = s.buffer) (health : t.health = s.health)
    (mgmt : t.mgmt = s.mgmt) : systemEntryFree t = systemEntryFree s := by
  have capacity : systemCapacity t = systemCapacity s := by
    rw [systemCapacity_eq, systemCapacity_eq, mgmt, buffer]
  rw [Bool.eq_iff_iff, systemEntryFree_iff, systemEntryFree_iff, capacity, buffer, health]

theorem pendingEntry_congr {s t : State} (buffer : t.buffer = s.buffer) (line : Nat) :
    pendingEntry t line = pendingEntry s line := by
  rw [pendingEntry, pendingEntry, buffer]

theorem lineClear_congr {s t : State} (buffer : t.buffer = s.buffer) (line : Nat) :
    lineClear t line = lineClear s line := by
  simp only [lineClear, pendingEntry, lineDraining, buffer]

theorem setStand_eq (p : Port) (serial : Nat) (st : Stand) (s : State) :
    setStand p serial st s = { s with path := restand p serial st s.path } := by cases p <;> rfl

section
variable (p : Port) (t : Taken) (s : State)

/-- A posted WRITE merges into the line's PENDING entry (R56). -/
theorem intakePosted_merges (pending : (pendingEntry s (txLine t.tx)).isSome = true) :
    intakePosted p t s =
      settle
        (refuse p t .ok
          (mergeEntry (txLine t.tx) (spanMask (txOffset t.tx) t.tx.size) (placeBytes (txOffset t.tx) t.tx.data)
            s)) := by
  simp [intakePosted, placePosted, pending]

/-- A posted WRITE makes a new entry, when one is free and no write waits (R55). -/
theorem intakePosted_joins (pending : (pendingEntry s (txLine t.tx)).isSome = false)
    (room : (s.buffer.waiting.isEmpty && systemEntryFree s) = true) :
    intakePosted p t s =
      settle
        (refuse p t .ok
          (createEntry p (txLine t.tx) (spanMask (txOffset t.tx) t.tx.size) (placeBytes (txOffset t.tx) t.tx.data)
            s)) := by
  obtain ⟨first, free⟩ := (Bool.and_eq_true _ _).mp room
  simp [intakePosted, placePosted, pending, first, free]

/-- Any other posted WRITE waits, or is answered UNAVAILABLE (R55, R57). -/
theorem intakePosted_waits (pending : (pendingEntry s (txLine t.tx)).isSome = false)
    (room : (s.buffer.waiting.isEmpty && systemEntryFree s) = false) :
    intakePosted p t s =
      if s.link.unavailable then refuse p t .unavailable s
      else
        waitForEntry p t (spanMask (txOffset t.tx) t.tx.size) (placeBytes (txOffset t.tx) t.tx.data) s := by
  cases first : s.buffer.waiting.isEmpty
  · simp [intakePosted, pending, first]
  · have full : systemEntryFree s = false := by simpa [first] using room
    simp [intakePosted, placePosted, pending, first, full]

end

/-- Settles O20: the four outcomes of a posted WRITE. -/
theorem postedWritesMergeJoinOrWait : Obligations.PostedWritesMergeJoinOrWait := by
  refine ⟨fun s line => ⟨fun before r after regions others covers => ?_, fun others => ?_, postingLine_iff s line,
      pendingEntry_isSome s line, ?_⟩, fun mask new old i within => byteAt_overlay mask new old within,
    fun offset data i within => byteAt_placeBytes offset data within, fun p t s here passed write calm => ?_⟩
  · exact lineClass_region regions
      (fun x hx => Bool.eq_false_iff.mpr fun c => others x hx ((regionCovers_iff x line).mp c))
      ((regionCovers_iff r line).mpr covers)
  · exact lineClass_default fun x hx => Bool.eq_false_iff.mpr fun c => others x hx ((regionCovers_iff x line).mp c)
  · have free := systemEntryFree_iff s
    rw [systemCapacity_eq] at free
    exact free
  · intro v line offset mask data mayJoin (posting : postingLine s (txLine t.tx) = true)
    have outcome := exec_intake_write here passed write calm
    rw [if_pos posting] at outcome
    have path : v.path = s.path := watched_path p t s
    have buffer : v.buffer = s.buffer := watched_buffer p t s
    have link : v.link = s.link := watched_link p t s
    have same : pendingEntry v line = pendingEntry s line := pendingEntry_congr buffer line
    have room : (v.buffer.waiting.isEmpty && systemEntryFree v) = mayJoin := by
      rw [buffer, systemEntryFree_congr buffer (by simp [v]) (by simp [v])]
    change exec (.intake p) s = .next (intakePosted p t v) at outcome
    refine ⟨fun pending => ?_, fun none free => ?_, fun none full unavailable => ?_, fun none full available => ?_⟩
    · rw [outcome, intakePosted_merges p t v (same ▸ pending), refuse_eq, mergeEntry]
      simp only [path, buffer]
      rfl
    · rw [outcome, intakePosted_joins p t v (same ▸ none) (room.trans free), refuse_eq, createEntry]
      simp only [path, buffer]
      rfl
    · rw [outcome, intakePosted_waits p t v (same ▸ none) (room.trans full), if_pos (by rw [link, unavailable]),
        refuse_eq, path]
    · rw [outcome, intakePosted_waits p t v (same ▸ none) (room.trans full), if_neg (by simp [link, available]),
        waitForEntry, setStand_eq]
      simp only [path, buffer]
      rfl

/-! ### Through-writes (R20, R71, R72) -/

/-- The through-write that a WRITE becomes at step 8 (R72). -/
def throughAt (p : Port) (t : Taken) : ThroughWrite :=
  { serial := t.serial, port := some p, stage := .waitLine, issued := false, listed := false
    course :=
      { line := txLine t.tx, mask := spanMask (txOffset t.tx) t.tx.size, bytes := placeBytes (txOffset t.tx) t.tx.data
        mapped := txLine t.tx, view := .intact, drainLine := placeBytes (txOffset t.tx) t.tx.data
        known := spanMask (txOffset t.tx) t.tx.size } }

/-- The WRITE holds its port's intake as a through-write (R72). -/
def throughHeld (p : Port) (t : Taken) (s : State) : State :=
  setStand p t.serial .through { s with path := { s.path with throughs := s.path.throughs ++ [throughAt p t] } }

/-- What a WRITE that is written through does at step 8 (R20, R72, R166). -/
theorem intakeThrough_eq (p : Port) (t : Taken) (s : State) :
    intakeThrough p t s =
      if s.link.unavailable then refuse p t .unavailable s
      else
        let u := if s.metaCtl.phase = .readReady then enterRepairing (throughHeld p t s) else throughHeld p t s
        if lineClear s (txLine t.tx) then claimThrough (throughAt p t) u else u := by
  have clear : lineClear (if s.metaCtl.phase = .readReady then enterRepairing (throughHeld p t s)
      else throughHeld p t s) (txLine t.tx) = lineClear s (txLine t.tx) := by
    split <;> exact lineClear_congr (by simp [throughHeld]) _
  dsimp only
  rw [← clear]
  cases p <;> rfl

/-- Settles O21: the three outcomes of a through-write at intake. -/
theorem throughWritesHoldTheirPortsIntake : Obligations.ThroughWritesHoldTheirPortsIntake := by
  refine ⟨fun s line => ⟨postingLine_false_iff s line, lineClear_iff s line⟩, fun p t s here passed write calm => ?_⟩
  intro v line offset data w held (through : postingLine s (txLine t.tx) = false)
  have outcome := exec_intake_write here passed write calm
  have path : v.path = s.path := watched_path p t s
  have phase : v.metaCtl.phase = s.metaCtl.phase := by simp [v]
  have link : v.link = s.link := watched_link p t s
  have clear : lineClear v (txLine t.tx) = lineClear s line := lineClear_congr (watched_buffer p t s) line
  have holds : throughHeld p t v = held := by
    rw [throughHeld, setStand_eq, path]
    rfl
  rw [through, if_neg (by decide), intakeThrough_eq, link, phase, clear, holds, refuse_eq, path] at outcome
  refine ⟨fun unavailable => ?_, fun available other => ?_, fun available early => ?_⟩
  · rw [outcome, if_pos unavailable]
  · rw [outcome, if_neg (by simp [available])]
    dsimp only
    rw [if_neg other]
    rfl
  · rw [outcome, if_neg (by simp [available])]
    dsimp only
    rw [if_pos early]
    rfl

/-- A through-write asks for its claim (R72, R73). -/
def throughAsked (w : ThroughWrite) (s : State) : State :=
  requestClaim w.course.line .exclusive (.through w.serial)
    (setThrough w.serial (fun x => { x with stage := .waitClaim }) s)

theorem claimThrough_eq (w : ThroughWrite) (s : State) :
    claimThrough w s =
      if claimFree s w.course.line .exclusive then
        startCourse (.through w.serial) w.course.line w.course.mask w.course.bytes (throughAsked w s)
      else throughAsked w s := by
  rw [← grantedAtOnce_eq]
  rfl

/-- A through-write that asks for its claim changes its stage and the claims (R72, R93). -/
theorem throughAsked_frame (w : ThroughWrite) (s : State) :
    Keeps [.path, .link] s (throughAsked w s)
      ∧ (throughAsked w s).path =
          { s.path with
            throughs :=
              s.path.throughs.map fun x => if x.serial = w.serial then { x with stage := .waitClaim } else x }
      ∧ (throughAsked w s).link = { s.link with claims := (throughAsked w s).link.claims }
      ∧ ∀ l, l ≠ w.course.line → claimRecord (throughAsked w s) l = claimRecord s l := by
  refine ⟨by constructor <;> simp [throughAsked, setThrough], by simp [throughAsked, setThrough], ?_, fun l other => ?_⟩
  · rw [throughAsked, requestClaim_link]
    rfl
  · rw [throughAsked, claimRecord_requestClaim_ne _ _ _ other]
    rfl

theorem throughAsked_waits {w : ThroughWrite} {s : State} (claimed : claimFree s w.course.line .exclusive = false) :
    claimRecord (throughAsked w s) w.course.line =
      { claimRecord s w.course.line with
        waiting := (claimRecord s w.course.line).waiting ++ [{ kind := .exclusive, owner := .through w.serial }] } :=
  claimRecord_waits (s := setThrough w.serial (fun x => { x with stage := .waitClaim }) s) claimed _

theorem throughAsked_granted {w : ThroughWrite} {s : State} (free : claimFree s w.course.line .exclusive = true) :
    claimRecord (throughAsked w s) w.course.line = { holders := .exclusive (.through w.serial), waiting := [] } :=
  claimRecord_granted (s := setThrough w.serial (fun x => { x with stage := .waitClaim }) s) free _

/-- Settles O22: the claim of a clear line, waiting or granted at once. -/
theorem throughWriteClaimsItsClearLine : Obligations.ThroughWriteClaimsItsClearLine := by
  intro p s out
  refine ⟨fun none => ?_, fun w found => ?_⟩
  · exact onPart_idle (by rw [requestThrough, none])
  intro line
  have asks : requestThrough p s = if lineClear s line then claimThrough w s else s := by rw [requestThrough, found]
  obtain ⟨keeps, path, link, others⟩ := throughAsked_frame w s
  refine ⟨fun held => ?_, fun clear claimed => ?_, fun clear free => ?_⟩
  · exact onPart_idle (asks.trans (if_neg (by simp [held])))
  · refine ⟨_, onPart_leads out ((asks.trans (if_pos clear)).trans ?_), keeps, path, link, others, ?_⟩
    · rw [claimThrough_eq, if_neg (by simpa [line] using claimed)]
    · rw [throughAsked_waits claimed]
      exact ⟨rfl, rfl⟩
  · refine ⟨_, onPart_leads out ((asks.trans (if_pos clear)).trans ?_), keeps, path, link, others, ?_⟩
    · rw [claimThrough_eq, if_pos free]
    · exact throughAsked_granted free

/-- Settles O23: a waiting write is taken as a posted WRITE is. -/
theorem waitingWritesAreTakenInOrder : Obligations.WaitingWritesAreTakenInOrder := by
  refine ⟨fun s out => onPart_out out fun s => settle (placeWaiting s), fun w s =>
    ⟨fun pending => ?_, fun none free => ?_, fun none full => ?_⟩⟩
  · rw [retryWaiting, placePosted, if_pos pending]
    exact answer_eq ..
  · rw [retryWaiting, placePosted, if_neg (by simp [none]), if_pos free]
    exact answer_eq ..
  · rw [retryWaiting, placePosted, if_neg (by simp [none]), if_neg (by simp [full])]

end Sys2Proof.Machine
end

section
namespace Sys2Proof.Machine

/-! ### Through-writes, found and changed by their stamp -/

/-- The through-writes with one stamp moved behind the others (R98). -/
def behind (n : Nat) (l : List ThroughWrite) : List ThroughWrite :=
  l.filter (fun x => x.serial != n) ++ l.filter fun x => x.serial == n

/-- A change of the through-writes with one stamp, which stand behind the others. -/
theorem map_behind (n : Nat) (f : ThroughWrite → ThroughWrite) (l : List ThroughWrite) :
    (behind n l).map (fun x => if x.serial = n then f x else x) =
      l.filter (fun x => x.serial != n) ++ (l.filter fun x => x.serial == n).map f := by
  rw [behind, List.map_append]
  congr 1
  · refine (List.map_congr_left fun x hx => ?_).trans (List.map_id _)
    exact if_neg (by simpa using (List.mem_filter.mp hx).2)
  · refine List.map_congr_left fun x hx => ?_
    exact if_pos (by simpa using (List.mem_filter.mp hx).2)

/-- Two changes of one through-write in turn. -/
theorem setThrough_setThrough (n : Nat) (f g : ThroughWrite → ThroughWrite) (s : State)
    (stamp : ∀ x, (f x).serial = x.serial) :
    setThrough n g (setThrough n f s) = setThrough n (fun x => g (f x)) s := by
  simp only [setThrough, List.map_map]
  congr 3
  funext x
  by_cases here : x.serial = n <;> simp [here, stamp]

/-- Where a through-write with the stamp exists, the stamp finds it after a change that keeps stamps. -/
theorem throughOf_setThrough {n : Nat} {f : ThroughWrite → ThroughWrite} (stamp : ∀ x, (f x).serial = x.serial)
    {s : State} (present : ∃ x ∈ s.path.throughs, x.serial = n) :
    ∃ x, throughOf (setThrough n f s) n = some (f x) := by
  have same : ∀ x : ThroughWrite, (if x.serial = n then f x else x).serial = x.serial := fun x => by
    split <;> simp [stamp]
  obtain ⟨x, found⟩ : ∃ x, throughOf s n = some x := by
    obtain ⟨x, member, here⟩ := present
    exact Option.isSome_iff_exists.mp (List.find?_isSome.mpr ⟨x, member, by simpa using here⟩)
  have here : x.serial = n := by simpa using List.find?_some found
  have test : ((fun t : ThroughWrite => t.serial == n) ∘ fun x => if x.serial = n then f x else x)
      = fun t => t.serial == n := funext fun x => by simp [same x]
  refine ⟨x, ?_⟩
  rw [throughOf, setThrough, List.find?_map, test, show s.path.throughs.find? _ = some x from found]
  simp [here]

/-! ### The begin of a course (R60, R73, R98) -/

/-- The course that begins on a line (R60). -/
def courseAt (line : Nat) (mask : Mask) (bytes : LineData) (s : State) : Course :=
  { line := line, mask := mask, bytes := bytes, mapped := mappedLine s line, view := dataState s line
    drainLine := if mask ≠ Mask.full ∧ dataState s line = .poisoned then overlay mask bytes zeroLine else bytes
    known := mask }

/-- The writer stands with its course, and nothing has been placed for it. -/
def courseSet (w : Writer) (line : Nat) (mask : Mask) (bytes : LineData) (s : State) : State :=
  setCourse w (courseAt line mask bytes s) (orderByGrant w s)

theorem dataState_congr {s t : State} (same : t.remap = s.remap) (line : Nat) :
    dataState t line = dataState s line := by
  rw [dataState, dataState, remapEntry, remapEntry, same]

/-- What R60 chooses from. -/
theorem startCourse_eq (w : Writer) (line : Nat) (mask : Mask) (bytes : LineData) (s : State) :
    startCourse w line mask bytes s =
      if mask = Mask.full then
        placeCourseOp (.mappedProgram w) (mappedLine s line) (.program (.bytes bytes)) true
          (courseSet w line mask bytes s)
      else if dataState s line = .poisoned then
        joinWork (.storage w line (overlay mask bytes zeroLine) mask) (courseSet w line mask bytes s)
      else placeCourseOp (.mergeRead w) (mappedLine s line) .read true (courseSet w line mask bytes s) := by
  have mapped := mappedLine_congr (t := orderByGrant w s) (s := s) (by simp) (by simp) line
  have view := dataState_congr (t := orderByGrant w s) (s := s) (by simp) line
  simp only [startCourse, mapped, view, courseSet, courseAt]
  by_cases full : mask = Mask.full
  · simp [full]
  · by_cases poisoned : dataState s line = .poisoned <;> simp [full, poisoned]

section
variable (line : Nat) (mask : Mask) (bytes : LineData) (s : State)

/-- A drain's course is the buffer's (R60). -/
theorem courseSet_drain :
    courseSet .drain line mask bytes s =
      { s with buffer := { s.buffer with drain := some (courseAt line mask bytes s) } } := rfl

/-- A through-write takes its course behind those granted before it (R73, R98). -/
theorem courseSet_through (n : Nat) :
    courseSet (.through n) line mask bytes s =
      setThrough n (fun x => { x with stage := .course, course := courseAt line mask bytes s })
        { s with path := { s.path with throughs := behind n s.path.throughs } } := rfl

end

@[simp] theorem placeCourseOp_link (purpose : Purpose) (line : Nat) (action : OpAction) (first : Bool) (s : State) :
    (placeCourseOp purpose line action first s).link =
      { s.link with
        work :=
          s.link.work
            ++ [{ purpose := purpose, arrayLine := line, action := action, first := first, issued := false }] } :=
  rfl

theorem courseOf_placeCourseOp (purpose : Purpose) (line : Nat) (action : OpAction) (first : Bool) (s : State)
    (w : Writer) : courseOf (placeCourseOp purpose line action first s) w = courseOf s w := by
  cases w <;> rfl

theorem joinWork_storage_drain (line : Nat) (data : LineData) (mask : Mask) (s : State) :
    joinWork (.storage .drain line data mask) s =
      { s with remap := { s.remap with workList := s.remap.workList ++ [.storage .drain line data mask] } } := rfl

theorem joinWork_storage_through (n line : Nat) (data : LineData) (mask : Mask) (s : State) :
    joinWork (.storage (.through n) line data mask) s =
      setThrough n (fun x => { x with listed := true })
        { s with
          remap := { s.remap with workList := s.remap.workList ++ [.storage (.through n) line data mask] } } := rfl

/-- What a through-write is after its course has begun; one that asks for merge-fail storage is listed (R73, R74). -/
def inCourse (line : Nat) (mask : Mask) (bytes : LineData) (s : State) (x : ThroughWrite) : ThroughWrite :=
  { x with
    stage := .course, course := courseAt line mask bytes s
    listed := x.listed || decide (mask ≠ Mask.full ∧ dataState s line = .poisoned) }

section
variable (w : Writer) (n line : Nat) (mask : Mask) (bytes : LineData) (s : State)

theorem startCourse_through_path :
    (startCourse (.through n) line mask bytes s).path =
      (setThrough n (inCourse line mask bytes s)
        { s with path := { s.path with throughs := behind n s.path.throughs } }).path := by
  rw [startCourse_eq, courseSet_through]
  by_cases full : mask = Mask.full
  · have plain : inCourse line mask bytes s = fun x =>
      { x with stage := .course, course := courseAt line mask bytes s } := by
      funext x
      simp [inCourse, full]
    rw [if_pos full, plain]
    rfl
  · by_cases poisoned : dataState s line = .poisoned
    · have listed : inCourse line mask bytes s = fun x =>
          { x with stage := .course, course := courseAt line mask bytes s, listed := true } := by
        funext x
        simp [inCourse, full, poisoned]
      rw [if_neg full, if_pos poisoned, joinWork_storage_through, listed]
      have twice := congrArg State.path (setThrough_setThrough n
        (fun x => { x with stage := .course, course := courseAt line mask bytes s })
        (fun x => { x with listed := true })
        { s with path := { s.path with throughs := behind n s.path.throughs } } fun _ => rfl)
      exact twice
    · have plain : inCourse line mask bytes s = fun x =>
          { x with stage := .course, course := courseAt line mask bytes s } := by
        funext x
        simp [inCourse, poisoned]
      rw [if_neg full, if_neg poisoned, plain]
      rfl

theorem startCourse_through_buffer : (startCourse (.through n) line mask bytes s).buffer = s.buffer := by
  rw [startCourse_eq]
  split_ifs <;> simp [courseSet_through, setThrough]

/-- A drain's course leaves the Line Path as it is (R60). -/
theorem startCourse_drain :
    (startCourse .drain line mask bytes s).path = s.path
      ∧ (startCourse .drain line mask bytes s).buffer =
          { s.buffer with drain := some (courseAt line mask bytes s) } := by
  rw [startCourse_eq]
  split_ifs <;> exact ⟨rfl, rfl⟩

/-- The course that stands after its begin is the one that was begun (R60, R73). -/
theorem courseOf_startCourse (present : ∀ n, w = .through n → ∃ x ∈ s.path.throughs, x.serial = n) :
    courseOf (startCourse w line mask bytes s) w = some (courseAt line mask bytes s) := by
  cases w with
  | drain =>
    rw [courseOf, (startCourse_drain line mask bytes s).2]
  | through n =>
    obtain ⟨x, member, here⟩ := present n rfl
    have behind : ∃ x ∈ behind n s.path.throughs, x.serial = n := by
      refine ⟨x, List.mem_append_right _ (List.mem_filter.mpr ⟨member, by simpa using here⟩), here⟩
    obtain ⟨y, found⟩ := throughOf_setThrough (f := inCourse line mask bytes s) (fun _ => rfl)
      (s := { s with path := { s.path with throughs := Sys2Proof.Machine.behind n s.path.throughs } }) behind
    rw [courseOf, throughOf, startCourse_through_path, ← throughOf, found]
    rfl

end

/-- Settles O24: the three ways a course begins, for either writer. -/
theorem coursesBeginByMaskAndDataState : Obligations.CoursesBeginByMaskAndDataState := by
  intro w line mask bytes s present u op stores course
  have begun : u = _ := startCourse_eq w line mask bytes s
  have link : (courseSet w line mask bytes s).link = s.link := by cases w <;> rfl
  have remap : (courseSet w line mask bytes s).remap = s.remap := by cases w <;> rfl
  refine ⟨?_, ?_, ?_, fun full => ?_, fun part poisoned => ?_, fun part known => ?_,
    _, courseOf_startCourse w line mask bytes s present, rfl, rfl, rfl, rfl, rfl⟩
  · constructor <;> simp [u]
  · rintro rfl
    exact startCourse_drain line mask bytes s
  · rintro n rfl
    refine ⟨startCourse_through_buffer n line mask bytes s, (startCourse_through_path n line mask bytes s).trans ?_⟩
    simp only [setThrough, map_behind]
    rfl
  · rw [begun, if_pos full, placeCourseOp_link, link]
    exact ⟨by simpa using remap, rfl⟩
  · rw [begun, if_neg part, if_pos poisoned, joinWork_workList, remap]
    exact ⟨by simpa using link, rfl⟩
  · rw [begun, if_neg part, if_neg known, placeCourseOp_link, link]
    exact ⟨by simpa using remap, rfl⟩

end Sys2Proof.Machine
end

section
namespace Sys2Proof.Machine

/-! ### The selection of a drain (R53, R59) -/

theorem drains_iff (p : Phase) : p.drains = true ↔ p = .repairing ∨ p = .fullReady := by
  cases p <;> simp [Phase.drains]

/-- An eligible entry is PENDING, on a line with no DRAINING entry and no claim (R59). -/
theorem eligible_iff (s : State) (e : SystemEntry) :
    eligible s e = true ↔
      e.state = .pending ∧ (lineDraining s e.line).isNone = true ∧ lineUnclaimed s e.line = true := by
  simp [eligible, and_assoc]

/-- A line with no claim is granted to the drain at once (R59, R93). -/
theorem claimFree_of_unclaimed {s : State} {line : Nat} (unclaimed : lineUnclaimed s line = true) (k : ClaimKind) :
    claimFree s line k = true := by
  obtain ⟨none, first⟩ := (Bool.and_eq_true _ _).mp unclaimed
  rw [claimFree, first, holders_of_isNone none]
  cases k <;> rfl

/-- The state on which the selected drain begins its course (R59). -/
def drainClaimed (line : Nat) (s : State) : State := requestClaim line .exclusive .drain (markDraining line s)

/-- Marking an entry and claiming its line changes the buffer and the claims (R59, R93). -/
theorem drainClaimed_frame (line : Nat) (s : State) :
    Keeps [.buffer, .link] s (drainClaimed line s)
      ∧ (drainClaimed line s).buffer = (markDraining line s).buffer
      ∧ (drainClaimed line s).link = { s.link with claims := (drainClaimed line s).link.claims }
      ∧ ∀ l, l ≠ line → claimRecord (drainClaimed line s) l = claimRecord s l := by
  refine ⟨by constructor <;> simp [drainClaimed, markDraining], by simp [drainClaimed], ?_, fun l other => ?_⟩
  · rw [drainClaimed, requestClaim_link]
    rfl
  · rw [drainClaimed, claimRecord_requestClaim_ne _ _ _ other]
    rfl

theorem drainClaimed_granted {line : Nat} {s : State} (unclaimed : lineUnclaimed s line = true) :
    claimRecord (drainClaimed line s) line = { holders := .exclusive .drain, waiting := [] } :=
  claimRecord_granted (s := markDraining line s) (claimFree_of_unclaimed (s := s) unclaimed .exclusive) .drain

/-- Settles O25: nothing to select, or the first eligible entry. -/
theorem drainSelectTakesTheOldestEligibleEntry : Obligations.DrainSelectTakesTheOldestEligibleEntry := by
  intro s out
  refine ⟨fun idle => onPart_idle ?_, fun before after e free phase entries others here => ?_⟩
  · rcases idle with busy | phase | waits
    · rw [selectDrain, if_pos (by simp [busy])]
    · have stays : s.metaCtl.phase.drains = false := Bool.eq_false_iff.mpr (mt (drains_iff _).mp phase)
      rw [selectDrain, if_pos (by simp [stays])]
    · have found : oldestEligible s = none := by simpa [oldestEligible] using waits
      rw [selectDrain, found]
      exact ite_self s
  · have found : oldestEligible s = some e := by rw [oldestEligible, entries, find_first _ _ _ _ others here]
    have runs := (drains_iff _).mpr phase
    obtain ⟨-, -, unclaimed⟩ := (eligible_iff s e).mp here
    obtain ⟨keeps, buffer, link, claims⟩ := drainClaimed_frame e.line s
    refine ⟨drainClaimed e.line s, onPart_leads out ?_, keeps, buffer, link, drainClaimed_granted unclaimed, claims⟩
    rw [selectDrain, found, if_neg (by simp [free, runs])]
    rfl

/-! ### The end of a course (R66, R69, R74, R94) -/

theorem dropClaim_link_congr {s t : State} (same : t.link = s.link) (line : Nat) (o : Claimant) :
    (dropClaim line o t).link = (dropClaim line o s).link := by
  obtain ⟨⟩ := s
  obtain ⟨⟩ := t
  cases same
  rfl

/-- The drain's entry leaves the buffer (R66). -/
def drainEnded (s : State) : PostingBuffer :=
  { s.buffer with entries := s.buffer.entries.filter fun e => e.state != .draining, drain := none }

theorem endDrain_programmed {s : State} {c : Course} (drains : s.buffer.drain = some c) :
    endDrain .programmed s = dropClaim c.line .drain { s with buffer := drainEnded s } := by
  simp [endDrain, drains, drainEnded]

theorem endDrain_lost {s : State} {c : Course} {e : SystemEntry} (drains : s.buffer.drain = some c)
    (entry : drainingEntry s = some e) (cause : LossCause) :
    endDrain (.lost cause) s =
      dropClaim c.line .drain { reportLoss e cause s with buffer := drainEnded (reportLoss e cause s) } := by
  simp [endDrain, drains, entry, drainEnded]

/-- The report of a lost entry: the flag with its incident, and the count of an open DRAIN_ALL (R66, R69). -/
theorem reportLoss_events (e : SystemEntry) (cause : LossCause) (s : State) :
    (reportLoss e cause s).events =
      (writeIncident
        { kind := .dataLoss, line := some e.line, port := some e.firstWriter
          detail := some (BitVec.ofNat 8 cause.code), index := none }
        (post .dataLoss s)).events := by
  unfold reportLoss
  dsimp only
  split <;> rfl

theorem reportLoss_counts {e : SystemEntry} {cause : LossCause} {s : State} {n d : Nat}
    (counts : s.mgmt.busy = some (.drainAll n d)) (target : e.target = true) :
    (reportLoss e cause s).mgmt = { s.mgmt with busy := some (.drainAll n (d + 1)) } := by
  simp [reportLoss, counts, target]

theorem reportLoss_mgmt {e : SystemEntry} {cause : LossCause} {s : State}
    (other : (∀ n d, s.mgmt.busy ≠ some (.drainAll n d)) ∨ e.target = false) :
    (reportLoss e cause s).mgmt = s.mgmt := by
  unfold reportLoss
  dsimp only
  split
  next n d busy target =>
    rcases other with none | untargeted
    · exact absurd (by simpa using busy) (none n d)
    · rw [target] at untargeted
      cases untargeted
  next => simp

theorem queueOf_answer (p : Port) (serial : Nat) (r : Response) (s : State) :
    queueOf (answer p serial r s) p =
      (queueOf s p).map fun x => if x.serial = serial then { x with stand := .decided r } else x := by
  rw [answer, setStand, queueOf_setQueue]

theorem queueOf_answer_ne {p p' : Port} (serial : Nat) (r : Response) (s : State) (other : p' ≠ p) :
    queueOf (answer p serial r s) p' = queueOf s p' := by
  rw [answer, setStand, queueOf_setQueue_ne _ _ other]

/-- An answer touches the two port queues at most. -/
theorem answer_path (p : Port) (serial : Nat) (r : Response) (s : State) :
    (answer p serial r s).path =
      { s.path with
        queueA := (answer p serial r s).path.queueA, queueB := (answer p serial r s).path.queueB } := setQueue_path ..

/-- The response code of an ending (R74). -/
def Ending.response : Ending → ResponseCode
  | .programmed => .ok
  | .lost _ => .writeFailed

theorem endThrough_eq {s : State} {n : Nat} {t : ThroughWrite} (found : throughOf s n = some t) (ending : Ending) :
    endThrough n ending s = answerThrough t ending.response (dropThrough t s) ∧ t.serial = n := by
  refine ⟨?_, by simpa using List.find?_some found⟩
  cases ending <;> simp [endThrough, found, Ending.response]

/-- A through-write leaves the Line Path with its claim (R74, R94). -/
theorem dropThrough_effect (t : ThroughWrite) (s : State) :
    Keeps [.path, .link] s (dropThrough t s)
      ∧ (dropThrough t s).path = { s.path with throughs := s.path.throughs.filter fun x => x.serial != t.serial }
      ∧ (∀ p, queueOf (dropThrough t s) p = queueOf s p)
      ∧ (dropThrough t s).link = { s.link with claims := (dropThrough t s).link.claims }
      ∧ claimRecord (dropThrough t s) t.course.line = withoutClaimant (.through t.serial) (claimRecord s t.course.line)
      ∧ ∀ l, l ≠ t.course.line → claimRecord (dropThrough t s) l = claimRecord s l := by
  refine ⟨by constructor <;> simp [dropThrough], by simp [dropThrough], fun p => by cases p <;> rfl, rfl, ?_,
    fun l other => ?_⟩
  · rw [dropThrough, claimRecord_dropClaim]
    rfl
  · rw [dropThrough, claimRecord_dropClaim_at, if_neg (Ne.symm other)]
    rfl

/-- The answer of a through-write is its port's, if a port still waits for it (R20, R74). -/
theorem answerThrough_effect (t : ThroughWrite) (code : ResponseCode) (s : State) :
    Keeps [.path] s (answerThrough t code s)
      ∧ (answerThrough t code s).path =
          { s.path with
            queueA := (answerThrough t code s).path.queueA, queueB := (answerThrough t code s).path.queueB }
      ∧ (∀ p, t.port = some p →
        queueOf (answerThrough t code s) p =
          (queueOf s p).map fun x =>
            if x.serial = t.serial then { x with stand := .decided { code := code, data := [] } } else x)
      ∧ ∀ p, t.port ≠ some p → queueOf (answerThrough t code s) p = queueOf s p := by
  refine ⟨by constructor <;> simp, ?_⟩
  cases port : t.port with
  | none => simp [answerThrough, port]
  | some q =>
    simp only [answerThrough, port]
    refine ⟨answer_path .., fun p here => ?_, fun p other => queueOf_answer_ne _ _ _ fun h => other (by rw [h])⟩
    cases here
    exact queueOf_answer ..

/-- Settles O26: the end of a drain, programmed or lost, and of a through-write. -/
theorem coursesEndByAnswerOrReport : Obligations.CoursesEndByAnswerOrReport := by
  intro s
  refine ⟨fun c drains => ?_, fun c e cause drains entry => ?_, fun n t ending found => ?_⟩
  · intro u
    have ended : u = _ := endDrain_programmed drains
    refine ⟨?_, ?_, ?_, ?_, fun l other => ?_⟩
    · rw [ended]
      constructor <;> simp
    · rw [ended]
      simp [drainEnded]
    · rw [ended]
      rfl
    · rw [ended, claimRecord_dropClaim]
      rfl
    · rw [ended, claimRecord_dropClaim_at, if_neg (Ne.symm other)]
      rfl
  · intro u
    have ended : u = _ := endDrain_lost drains entry cause
    have left : (endDrain .programmed s).buffer = drainEnded s ∧ (endDrain .programmed s).link
        = (dropClaim c.line .drain { s with buffer := drainEnded s }).link := by
      rw [endDrain_programmed drains]
      simp
    refine ⟨?_, ?_, ?_, ?_, fun n d counts target => ?_, fun other => ?_⟩
    · rw [ended]
      constructor <;> simp
    · rw [ended, left.1]
      simp [drainEnded]
    · rw [ended, left.2]
      exact dropClaim_link_congr (by simp) _ _
    · have reported : u.events = (reportLoss e cause s).events := by
        rw [ended]
        simp
      cases cause <;> exact reported.trans (reportLoss_events e _ s)
    · rw [ended]
      simpa using reportLoss_counts counts target
    · rw [ended]
      simpa using reportLoss_mgmt other
  · intro u code
    obtain ⟨ended, stamp⟩ := endThrough_eq found ending
    have answers : code = ending.response := by cases ending <;> rfl
    subst stamp
    obtain ⟨dropped, path, queues, link, claims, others⟩ := dropThrough_effect t s
    obtain ⟨-, answered, here, elsewhere⟩ := answerThrough_effect t ending.response (dropThrough t s)
    have same := answerThrough_link t ending.response (dropThrough t s)
    have records (l : Nat) : claimRecord u l = claimRecord (dropThrough t s) l :=
      claimRecord_congr (by rw [show u = _ from ended, same]) l
    refine ⟨?_, ?_, fun p port => ?_, fun p port => ?_, ?_, ?_, fun l other => ?_⟩
    · constructor <;> simp [u]
    · rw [show u = _ from ended, answered, path]
    · rw [show u = _ from ended, here p port, queues, answers]
    · rw [show u = _ from ended, elsewhere p port, queues]
    · rw [show u = _ from ended, same, link]
    · rw [records, claims]
    · rw [records, others l other]

end Sys2Proof.Machine
end

section
namespace Sys2Proof.Machine

/-! ### Lists whose elements are revised by a stamp

SRST, PWARN and the grant wait expiry act on each system read and on each through-write in turn; each action revises or
takes out all the elements with its stamp. -/

/-- One element under a list of revisions in turn; `none` once it has been taken out. -/
def revisedBy {α β : Type} (h : α → β → Option β) (l : List α) (x : β) : Option β :=
  l.foldl (fun o a => o.bind (h a)) (some x)

section
variable {α β : Type} (h : α → β → Option β)

theorem foldl_bind_none (l : List α) : l.foldl (fun o a => o.bind (h a)) (none : Option β) = none := by
  induction l with
  | nil => rfl
  | cons a l ih => exact ih

theorem revisedBy_cons (a : α) (l : List α) (x : β) : revisedBy h (a :: l) x = (h a x).bind (revisedBy h l) := by
  rw [revisedBy, List.foldl_cons, Option.bind_some]
  cases h a x with
  | none => exact foldl_bind_none h l
  | some y => rfl

/-- Revisions of a whole list act on each element by itself. -/
theorem foldl_filterMap (l : List α) (xs : List β) :
    l.foldl (fun ys a => ys.filterMap (h a)) xs = xs.filterMap (revisedBy h l) := by
  induction l generalizing xs with
  | nil => exact (List.filterMap_some).symm
  | cons a l ih =>
    rw [List.foldl_cons, ih, List.filterMap_filterMap]
    congr 1
    funext x
    exact (revisedBy_cons h a l x).symm

end

section
variable {α : Type} (stamp : α → Nat) (act : α → α → Option α)

/-- The elements with the stamp of `a` are acted on. -/
def atStamp (a x : α) : Option α := if stamp x = stamp a then act a x else some x

variable {stamp act}

/-- Elements with another stamp are left as they are. -/
theorem revisedBy_apart {l : List α} {x : α} (apart : ∀ a ∈ l, stamp a ≠ stamp x) :
    revisedBy (atStamp stamp act) l x = some x := by
  induction l with
  | nil => rfl
  | cons a l ih =>
    rw [revisedBy_cons, atStamp, if_neg fun same => apart a List.mem_cons_self same.symm]
    exact ih fun b hb => apart b (List.mem_cons_of_mem _ hb)

/-- With every stamp carried once, each element is acted on by its own action alone. -/
theorem revisedBy_own (keeps : ∀ a x y, act a x = some y → stamp y = stamp x) {l : List α}
    (once : (l.map stamp).Nodup) {x : α} (member : x ∈ l) : revisedBy (atStamp stamp act) l x = act x x := by
  induction l with
  | nil => cases member
  | cons a l ih =>
    rw [List.map_cons, List.nodup_cons] at once
    obtain ⟨first, once⟩ := once
    have apart {y : α} (hy : y ∈ l) : stamp y ≠ stamp a := fun same => first (same ▸ List.mem_map_of_mem hy)
    rw [revisedBy_cons, atStamp]
    rcases List.mem_cons.mp member with rfl | later
    · rw [if_pos rfl]
      cases acted : act x x with
      | none => rfl
      | some y =>
        exact revisedBy_apart fun b hb => by rw [keeps x x y acted]; exact apart hb
    · rw [if_neg (apart later)]
      exact ih once later

theorem foldl_own (keeps : ∀ a x y, act a x = some y → stamp y = stamp x) {l : List α} (once : (l.map stamp).Nodup) :
    l.foldl (fun ys a => ys.filterMap (atStamp stamp act a)) l = l.filterMap fun x => act x x := by
  rw [foldl_filterMap]
  exact List.filterMap_congr fun x hx => revisedBy_own keeps once hx

/-- An action that does the same to every element with its stamp, and nothing more when repeated. -/
theorem revisedBy_stable {g : α → Option α} (same : ∀ a x, stamp x = stamp a → act a x = g x)
    (stable : ∀ x y, g x = some y → g y = some y ∧ stamp y = stamp x) {l : List α} {x : α}
    (within : ∃ a ∈ l, stamp a = stamp x) :
    revisedBy (atStamp stamp act) l x = g x := by
  induction l generalizing x with
  | nil => simp at within
  | cons a l ih =>
    have settled (y : α) (hy : g y = some y) : revisedBy (atStamp stamp act) l y = some y := by
      by_cases here : ∃ b ∈ l, stamp b = stamp y
      · rw [ih here, hy]
      · exact revisedBy_apart fun b hb e => here ⟨b, hb, e⟩
    rw [revisedBy_cons, atStamp]
    by_cases here : stamp x = stamp a
    · rw [if_pos here, same a x here]
      cases acted : g x with
      | none => rfl
      | some y => exact settled y (stable x y acted).1
    · rw [if_neg here]
      obtain ⟨b, hb, e⟩ := within
      rcases List.mem_cons.mp hb with rfl | hb
      · exact absurd e.symm here
      · exact ih ⟨b, hb, e⟩

theorem foldl_stable {g : α → Option α} (same : ∀ a x, stamp x = stamp a → act a x = g x)
    (stable : ∀ x y, g x = some y → g y = some y ∧ stamp y = stamp x) (l : List α) :
    l.foldl (fun ys a => ys.filterMap (atStamp stamp act a)) l = l.filterMap g := by
  rw [foldl_filterMap]
  exact List.filterMap_congr fun x hx => revisedBy_stable same stable ⟨x, hx, rfl⟩

/-- What each element's own action brings about, and no action undoes, holds of every element left. -/
theorem mem_foldl_own {P : α → Prop} (own : ∀ x y, act x x = some y → P y)
    (keeps : ∀ a x y, act a x = some y → y = x ∨ P y) (holds : ∀ a x y, act a x = some y → P x → P y) (l : List α) :
    ∀ y ∈ l.foldl (fun ys a => ys.filterMap (atStamp stamp act a)) l, P y := by
  have left (l : List α) (x y : α) (revised : revisedBy (atStamp stamp act) l x = some y) (due : P x ∨ x ∈ l) :
      P y := by
    induction l generalizing x with
    | nil =>
      cases revised
      exact due.resolve_right (by simp)
    | cons a l ih =>
      rw [revisedBy_cons, Option.bind_eq_some_iff] at revised
      obtain ⟨z, acted, revised⟩ := revised
      refine ih z revised ?_
      unfold atStamp at acted
      split at acted
      next here =>
        rcases due with px | hx
        · exact .inl (holds a x z acted px)
        · rcases List.mem_cons.mp hx with rfl | hx
          · exact .inl (own x z acted)
          · exact (keeps a x z acted).elim (fun e => .inr (e ▸ hx)) .inl
      next other =>
        cases acted
        exact due.imp_right fun hx => (List.mem_cons.mp hx).resolve_left fun e => other (by rw [e])
  intro y hy
  rw [foldl_filterMap, List.mem_filterMap] at hy
  obtain ⟨x, hx, revised⟩ := hy
  exact left l x y revised (.inr hx)

end

/-! ### Answers given one after the other (R3, R14, R57, R89) -/

/-- An answer: its port, the stamp of its transaction, and the response. -/
structure Reply where
  port : Port
  serial : Nat
  response : Response

/-- What an answer of port `p` makes of a transaction of that port's queue (R3). -/
def Reply.to (p : Port) (x : Taken) (r : Reply) : Taken :=
  if r.port = p ∧ x.serial = r.serial then { x with stand := .decided r.response } else x

/-- The queues of `t` are those of `s` with some answers given in turn. -/
def Answered (rs : List Reply) (s t : State) : Prop := ∀ p, queueOf t p = (queueOf s p).map (rs.foldl (Reply.to p))

theorem Answered.same {s t : State} (queues : ∀ p, queueOf t p = queueOf s p) : Answered [] s t := fun p =>
  (queues p).trans (List.map_id _).symm

theorem Answered.after {rs qs : List Reply} {s t u : State} (later : Answered qs t u) (first : Answered rs s t) :
    Answered (rs ++ qs) s u := fun p => by
  rw [later p, first p, List.map_map]
  exact List.map_congr_left fun x _ => (List.foldl_append ..).symm

theorem answer_answered (p : Port) (serial : Nat) (x : Response) (s : State) :
    Answered [⟨p, serial, x⟩] s (answer p serial x s) := fun q => by
  by_cases here : q = p
  · subst here
    rw [queueOf_answer]
    exact List.map_congr_left fun y _ => by simp [Reply.to]
  · rw [queueOf_answer_ne _ _ _ here]
    refine (List.map_id _).symm.trans (List.map_congr_left fun y _ => ?_)
    simp [Reply.to, Ne.symm here]

/-- The answers of a list of steps are given in the list's order. -/
theorem Answered.foldl {α : Type} {f : State → α → State} {replies : α → List Reply}
    (step : ∀ t a, Answered (replies a) t (f t a)) (l : List α) (s : State) :
    Answered (l.flatMap replies) s (l.foldl f s) := by
  induction l generalizing s with
  | nil => exact .same fun _ => rfl
  | cons a l ih => exact (ih (f s a)).after (step s a)

/-- A transaction that none of the answers is for is left as it is; any other holds one of the answers for it. -/
theorem foldl_reply (p : Port) (rs : List Reply) (x : Taken) :
    (rs.foldl (Reply.to p) x).serial = x.serial ∧ (rs.foldl (Reply.to p) x).tx = x.tx
      ∧ ((∀ r ∈ rs, ¬(r.port = p ∧ r.serial = x.serial)) → rs.foldl (Reply.to p) x = x)
      ∧ ((∃ r ∈ rs, r.port = p ∧ r.serial = x.serial) →
        ∃ r ∈ rs, r.port = p ∧ r.serial = x.serial ∧ (rs.foldl (Reply.to p) x).stand = .decided r.response) := by
  induction rs generalizing x with
  | nil => simp
  | cons r rs ih =>
    obtain ⟨serial, tx, apart, decided⟩ := ih (r.to p x)
    have stamp : (r.to p x).serial = x.serial := by
      unfold Reply.to
      split <;> rfl
    have order : (r.to p x).tx = x.tx := by
      unfold Reply.to
      split <;> rfl
    rw [stamp] at serial apart decided
    refine ⟨serial, tx.trans order, fun none => ?_, fun some => ?_⟩
    · have first : r.to p x = x := if_neg fun e => none r List.mem_cons_self ⟨e.1, e.2.symm⟩
      exact (apart fun q hq => none q (List.mem_cons_of_mem _ hq)).trans first
    · by_cases later : ∃ q ∈ rs, q.port = p ∧ q.serial = x.serial
      · obtain ⟨q, hq, port, same, stand⟩ := decided later
        exact ⟨q, List.mem_cons_of_mem _ hq, port, same, stand⟩
      · obtain ⟨q, hq, here⟩ := some
        obtain rfl : q = r := (List.mem_cons.mp hq).resolve_right fun hq => later ⟨q, hq, here⟩
        refine ⟨q, List.mem_cons_self, here.1, here.2, ?_⟩
        rw [List.foldl_cons, apart fun y hy e => later ⟨y, hy, e⟩]
        simp [Reply.to, here]

/-- A queue in which all the answers have one code and no data (R14). -/
theorem map_foldl_reply (p : Port) (code : ResponseCode) (rs : List Reply)
    (alike : ∀ r ∈ rs, r.response = { code := code, data := [] }) {serials : List Nat}
    (those : ∀ n, n ∈ serials ↔ ∃ r ∈ rs, r.port = p ∧ r.serial = n) (q : List Taken) :
    q.map (rs.foldl (Reply.to p)) = answeredAll serials code q := by
  refine List.map_congr_left fun x _ => ?_
  obtain ⟨serial, tx, apart, decided⟩ := foldl_reply p rs x
  by_cases here : x.serial ∈ serials
  · obtain ⟨r, hr, -, -, stand⟩ := decided ((those _).mp here)
    rw [if_pos (by simpa using here)]
    rw [alike r hr] at stand
    revert serial tx stand
    cases rs.foldl (Reply.to p) x
    rintro rfl rfl rfl
    rfl
  · rw [if_neg (by simpa using here)]
    exact apart fun r hr e => here ((those _).mpr ⟨r, hr, e⟩)

end Sys2Proof.Machine
end

section
namespace Sys2Proof.Machine

/-! ### Folds over the state, seen in one part of it -/

/-- What a fold does to a part of the state, where an invariant says what each step does to it. -/
theorem foldl_view {σ α : Type} (view : State → σ) {f : State → α → State} (g : σ → α → σ) (inv : State → Prop)
    (step : ∀ t a, inv t → inv (f t a) ∧ view (f t a) = g (view t) a) (l : List α) {s : State} (holds : inv s) :
    view (l.foldl f s) = l.foldl g (view s) := by
  induction l generalizing s with
  | nil => rfl
  | cons a l ih =>
    obtain ⟨kept, seen⟩ := step s a holds
    rw [List.foldl_cons, List.foldl_cons, ih kept, seen]

/-- A fold whose steps leave a part of the state alone leaves it alone. -/
theorem foldl_unseen {σ α : Type} (view : State → σ) {f : State → α → State} (step : ∀ t a, view (f t a) = view t)
    (l : List α) (s : State) : view (l.foldl f s) = view s := by
  induction l generalizing s with
  | nil => rfl
  | cons a l ih => exact (ih _).trans (step s a)

theorem filterMap_ite {α β : Type} (p : α → Bool) (f : α → β) (l : List α) :
    l.filterMap (fun x => if p x then some (f x) else none) = (l.filter p).map f := by
  induction l with
  | nil => rfl
  | cons x l ih => cases h : p x <;> simp [h, ih]

/-! ### What a withdrawal leaves (R6, R14, R89) -/

/-- In the Array Link the pending work and the claims alone have changed, and in the Line Path the queues, the reads and
the through-writes alone. -/
structure Thinned (s t : State) : Prop where
  link : t.link = { s.link with work := t.link.work, claims := t.link.claims }
  path : t.path =
    { s.path with
      queueA := t.path.queueA, queueB := t.path.queueB, reads := t.path.reads, throughs := t.path.throughs }

theorem Thinned.refl (s : State) : Thinned s s := ⟨rfl, rfl⟩

theorem Thinned.after {s t u : State} (later : Thinned t u) (first : Thinned s t) : Thinned s u :=
  ⟨by rw [later.link, first.link], by rw [later.path, first.path]⟩

theorem Thinned.foldl {α : Type} {f : State → α → State} (step : ∀ t a, Thinned t (f t a)) (l : List α) (s : State) :
    Thinned s (l.foldl f s) := by
  induction l generalizing s with
  | nil => exact .refl s
  | cons a l ih => exact (ih _).after (step s a)

/-- A read that is withdrawn leaves the Line Path (R6, R89). -/
theorem withdrawRead_effect (r : SystemRead) (s : State) :
    Thinned s (withdrawRead r s) ∧ (∀ p, queueOf (withdrawRead r s) p = queueOf s p)
      ∧ (withdrawRead r s).path.reads = s.path.reads.filter (fun x => x.serial != r.serial)
      ∧ (withdrawRead r s).path.throughs = s.path.throughs :=
  ⟨⟨rfl, rfl⟩, fun p => by cases p <;> rfl, rfl, rfl⟩

/-- A through-write that is withdrawn leaves the Line Path (R6, R14, R74). -/
theorem withdrawThrough_effect (w : ThroughWrite) (s : State) :
    Thinned s (withdrawThrough w s) ∧ (∀ p, queueOf (withdrawThrough w s) p = queueOf s p)
      ∧ (withdrawThrough w s).path.throughs = s.path.throughs.filter (fun x => x.serial != w.serial)
      ∧ (withdrawThrough w s).path.reads = s.path.reads :=
  ⟨⟨rfl, rfl⟩, fun p => by cases p <;> rfl, rfl, rfl⟩

/-- Taking out the elements with a stamp, as an action at that stamp. -/
theorem filter_atStamp {α : Type} (stamp : α → Nat) {act : α → α → Option α} {a : α} (gone : ∀ x, act a x = none)
    (l : List α) : l.filter (fun x => stamp x != stamp a) = l.filterMap (atStamp stamp act a) := by
  rw [← List.filterMap_eq_filter]
  congr 1
  funext x
  by_cases here : stamp x = stamp a <;> simp [atStamp, here, gone, Option.guard]

/-- Changing the elements with a stamp, as an action at that stamp. -/
theorem map_atStamp {α : Type} (stamp : α → Nat) {act : α → α → Option α} {a : α} {f : α → α}
    (changed : ∀ x, act a x = some (f x)) (l : List α) :
    l.map (fun x => if stamp x = stamp a then f x else x) = l.filterMap (atStamp stamp act a) := by
  rw [← List.filterMap_eq_map]
  congr 1
  funext x
  by_cases here : stamp x = stamp a <;> simp [atStamp, here, changed]

/-- Leaving the elements with a stamp, as an action at that stamp. -/
theorem same_atStamp {α : Type} (stamp : α → Nat) {act : α → α → Option α} {a : α} (kept : ∀ x, act a x = some x)
    (l : List α) : l = l.filterMap (atStamp stamp act a) := by
  have all : atStamp stamp act a = some := by
    funext x
    by_cases here : stamp x = stamp a <;> simp [atStamp, here, kept]
  rw [all, List.filterMap_some]

/-! ### SRST (R5 to R7) -/

/-- What SRST does to a read: it stays without an answer while its array read is in flight (R6). -/
def srstReadAct (s : State) (r x : SystemRead) : Option SystemRead :=
  if readInFlight s r then some { x with answered := false } else none

/-- What SRST does to a through-write: it stays without a port when an operation of it was issued (R6). -/
def srstThroughAct (w x : ThroughWrite) : Option ThroughWrite := if w.issued then some { x with port := none } else none

theorem readInFlight_congr {s t : State} (same : t.link.inFlight = s.link.inFlight) (r : SystemRead) :
    readInFlight t r = readInFlight s r := by
  rw [readInFlight, readInFlight, same]

theorem srstRead_effect (r : SystemRead) (s : State) :
    Thinned s (srstRead r s) ∧ (srstRead r s).path.throughs = s.path.throughs
      ∧ (srstRead r s).path.reads = s.path.reads.filterMap (atStamp SystemRead.serial (srstReadAct s) r) := by
  unfold srstRead
  split
  next flies =>
    exact ⟨⟨rfl, rfl⟩, rfl, map_atStamp (f := fun x => { x with answered := false })
      SystemRead.serial (fun x => if_pos flies) _⟩
  next lands =>
    obtain ⟨thinned, -, reads, throughs⟩ := withdrawRead_effect r s
    exact ⟨thinned, throughs, reads.trans (filter_atStamp SystemRead.serial (fun x => if_neg lands) _)⟩

theorem srstThrough_effect (w : ThroughWrite) (s : State) :
    Thinned s (srstThrough w s) ∧ (srstThrough w s).path.reads = s.path.reads
      ∧ (srstThrough w s).path.throughs =
          s.path.throughs.filterMap (atStamp ThroughWrite.serial srstThroughAct w) := by
  unfold srstThrough
  split
  next issued =>
    exact ⟨⟨rfl, rfl⟩, rfl, map_atStamp (f := fun x => { x with port := none })
      ThroughWrite.serial (fun x => if_pos issued) _⟩
  next unissued =>
    exact ⟨⟨rfl, rfl⟩, rfl, filter_atStamp ThroughWrite.serial (fun x => if_neg unissued) _⟩

/-- The state after SRST has gone through the reads and the through-writes (R6). -/
def srstCleared (s : State) : State :=
  (s.path.reads.foldl (fun t r => srstRead r t) s).path.throughs.foldl (fun t w => srstThrough w t)
    (s.path.reads.foldl (fun t r => srstRead r t) s)

theorem srstReads_path (s : State) :
    let t := s.path.reads.foldl (fun t r => srstRead r t) s
    Thinned s t ∧ t.path.throughs = s.path.throughs
      ∧ t.path.reads = (s.path.reads.filter (readInFlight s)).map fun r => { r with answered := false } := by
  refine ⟨.foldl (fun t r => (srstRead_effect r t).1) _ _,
    foldl_unseen (·.path.throughs) (fun t r => (srstRead_effect r t).2.1) _ _, ?_⟩
  rw [foldl_view (·.path.reads) (fun ys r => ys.filterMap (atStamp SystemRead.serial (srstReadAct s) r))
    (fun t => t.link.inFlight = s.link.inFlight) ?step s.path.reads rfl, foldl_stable ?same ?stable, ← filterMap_ite]
  case step =>
    intro t r same
    obtain ⟨thinned, -, reads⟩ := srstRead_effect r t
    have alike : srstReadAct t = srstReadAct s := by
      funext r x
      rw [srstReadAct, srstReadAct, readInFlight_congr same]
    rw [reads, alike]
    exact ⟨by rw [thinned.link, same], rfl⟩
  case same =>
    intro r x stamp
    rw [srstReadAct, readInFlight, ← stamp]
    rfl
  case stable =>
    intro x y acted
    split at acted
    next flies =>
      cases acted
      exact ⟨if_pos flies, rfl⟩
    next => cases acted

theorem srstCleared_path (s : State) :
    Thinned s (srstCleared s)
      ∧ (srstCleared s).path.reads = (s.path.reads.filter (readInFlight s)).map (fun r => { r with answered := false })
      ∧ (∀ x ∈ (srstCleared s).path.throughs, x.port = none)
      ∧ ((s.path.throughs.map (·.serial)).Nodup →
        (srstCleared s).path.throughs = (s.path.throughs.filter (·.issued)).map fun x => { x with port := none }) := by
  obtain ⟨thinned, throughs, reads⟩ := srstReads_path s
  have left : (srstCleared s).path.throughs
      = s.path.throughs.foldl (fun ys w => ys.filterMap (atStamp ThroughWrite.serial srstThroughAct w))
        s.path.throughs := by
    rw [srstCleared, foldl_view (·.path.throughs)
      (fun ys w => ys.filterMap (atStamp ThroughWrite.serial srstThroughAct w)) (fun _ => True)
      (fun t w _ => ⟨trivial, (srstThrough_effect w t).2.2⟩) _ trivial, throughs]
  have ports (w x y : ThroughWrite) (acted : srstThroughAct w x = some y) : y.port = none ∧ y.serial = x.serial := by
    unfold srstThroughAct at acted
    split at acted
    · cases acted
      exact ⟨rfl, rfl⟩
    · cases acted
  refine ⟨(Thinned.foldl (fun t w => (srstThrough_effect w t).1) _ _).after thinned, ?_, ?_, fun once => ?_⟩
  · rw [srstCleared, foldl_unseen (·.path.reads) (fun t w => (srstThrough_effect w t).2.1)]
    exact reads
  · rw [left]
    exact mem_foldl_own (P := fun x => x.port = none) (fun x y acted => (ports x x y acted).1)
      (fun w x y acted => .inr (ports w x y acted).1) (fun w x y acted _ => (ports w x y acted).1) _
  · rw [left, foldl_own (fun w x y acted => (ports w x y acted).2) once, ← filterMap_ite]
    rfl

/-- What SRST withdraws (R6, R94, R99). -/
theorem srstCleared_withdrawn (s : State) :
    Withdrawn (s.path.reads.filter fun r => !readInFlight s r) (s.path.throughs.filter fun t => !t.issued) s
      (srstCleared s) := by
  obtain ⟨-, throughs, -⟩ := srstReads_path s
  rw [← throughs]
  exact srstThroughs_withdrawn (srstReads_withdrawn s) _

/-- Some of these through-writes has no operation issued and has made the request (R6, log entry 10). -/
def srstTakes (l : List ThroughWrite) (r : Request) : Bool :=
  (l.filter fun t => !t.issued).any fun t => decide (r.writer = some (.through t.serial))

/-- The Remap Unit after requests have left its work list, and what the head waited for with it. -/
def withoutRequests (gone : Request → Bool) (m : RemapUnit) : RemapUnit :=
  { m with
    workList := m.workList.filter (fun r => !gone r)
    serving := if m.workList.head?.any gone then none else m.serving }

theorem withoutRequests_none (m : RemapUnit) : withoutRequests (fun _ => false) m = m := by
  cases h : m.workList.head? <;> simp [withoutRequests, h]

/-- Requests that leave in two turns. -/
theorem withoutRequests_or (f g : Request → Bool) (m : RemapUnit) :
    withoutRequests g (withoutRequests f m) = withoutRequests (fun r => f r || g r) m := by
  have list : (m.workList.filter fun r => !f r).filter (fun r => !g r) = m.workList.filter fun r => !(f r || g r) := by
    simp only [List.filter_filter, Bool.not_or, Bool.and_comm]
  have serving : (if (m.workList.filter fun r => !f r).head?.any g then none
      else if m.workList.head?.any f then none else m.serving)
      = if m.workList.head?.any (fun r => f r || g r) then none else m.serving := by
    cases m.workList with
    | nil => rfl
    | cons r rest => cases first : f r <;> simp [first]
  exact congrArg₂ (fun list serving => { m with workList := list, serving := serving }) list serving

theorem srstThrough_remap (w : ThroughWrite) (s : State) :
    (srstThrough w s).remap = withoutRequests (srstTakes [w]) s.remap := by
  unfold srstThrough
  cases issued : w.issued
  · have takes : srstTakes [w] = fun r => decide (r.writer = some (.through w.serial)) := by
      funext r
      simp [srstTakes, issued]
    rw [takes]
    simp only [withdrawThrough_frame, withdrawRequests, withoutRequests, Bool.false_eq_true, if_false]
    cases s.remap.workList with
    | nil => rfl
    | cons r rest => by_cases here : r.writer = some (.through w.serial) <;> simp [here]
  · have takes : srstTakes [w] = fun _ => false := by
      funext r
      simp [srstTakes, issued]
    rw [takes, withoutRequests_none]
    rfl

theorem srstCleared_remap (s : State) :
    (srstCleared s).remap = withoutRequests (srstTakes s.path.throughs) s.remap := by
  have turns (l : List ThroughWrite) (t : State) :
      (l.foldl (fun t w => srstThrough w t) t).remap = withoutRequests (srstTakes l) t.remap := by
    induction l generalizing t with
    | nil => exact (withoutRequests_none _).symm
    | cons w l ih =>
      rw [List.foldl_cons, ih, srstThrough_remap, withoutRequests_or]
      congr 1
      funext r
      cases issued : w.issued <;> simp [srstTakes, issued]
  obtain ⟨-, throughs, -⟩ := srstReads_path s
  rw [srstCleared, turns, throughs]
  simp

/-- What SRST leaves before the part settles (R6, R35, R51, R154). -/
def srstDone (s : State) : State :=
  srstWatches
    (srstReturn
      { srstCleared s with
        path := { (srstCleared s).path with queueA := [], queueB := [], drainWait := false }
        buffer := { (srstCleared s).buffer with waiting := [] } })

theorem systemReset_eq (s : State) : systemReset s = settle (srstDone s) := rfl

theorem srstCleared_frame (s : State) :
    Keeps [.path, .link, .remap] s (srstCleared s) := by
  constructor <;> simp [srstCleared]

/-- The return of the working values and the end of the watches touch neither the Line Path nor the work (R35, R154). -/
theorem srstDone_frame (s : State) :
    Keeps [.path, .fence, .tables, .buffer, .link, .remap, .watch] s (srstDone s)
      ∧ (srstDone s).path = { (srstCleared s).path with queueA := [], queueB := [], drainWait := false }
      ∧ (srstDone s).buffer = { s.buffer with waiting := [] }
      ∧ (srstDone s).link = (srstCleared s).link ∧ (srstDone s).remap = (srstCleared s).remap := by
  have kept := srstCleared_frame s
  have buffer := kept.buffer (by decide)
  refine ⟨?_, by simp [srstDone], by simp [srstDone, buffer], by simp [srstDone], by simp [srstDone]⟩
  constructor <;> simp [srstDone, srstCleared]

/-- With retain clear the fence and the working tables return to their stored values (R35, R51). -/
theorem srstDone_returns (s : State) :
    (s.fence.retain = true → (srstDone s).fence = s.fence ∧ (srstDone s).tables = s.tables)
      ∧ (s.fence.retain = false →
        (srstDone s).fence = { s.fence with current := s.fence.stored }
          ∧ (srstDone s).tables =
            { s.tables with regions := s.tables.storedRegions, classes := s.tables.storedClasses }) := by
  have kept := srstCleared_frame s
  have fence := kept.fence (by decide)
  have tables := kept.tables (by decide)
  refine ⟨fun retain => ?_, fun retain => ?_⟩ <;>
    simp [srstDone, srstWatches, srstReturn, fence, tables, retain]

theorem srstDone_watch (s : State) :
    (srstDone s).watch =
      { s.watch with
        ranges := s.watch.ranges.map (fun r => { r with enabled := false }), index := 0, armed := false } := by
  have watch := (srstCleared_frame s).watch (by decide)
  simp [srstDone, srstWatches, watch]

/-- Settles O27: SRST's work block by block, and the reset drain wait. -/
theorem srstClosesThePortsAndWithdraws : Obligations.SrstClosesThePortsAndWithdraws := by
  intro s out reads throughs goes
  refine ⟨fun high => if_pos high, fun low => ?_, fun low => if_neg (by simp [low]), fun high => ?_, fun none => ?_,
    fun some => ?_⟩
  · let s' : State := { s with pins := { s.pins with srst := true } }
    obtain ⟨kept, path, buffer, link, remap⟩ := srstDone_frame s'
    obtain ⟨thinned, left, ports, orphans⟩ := srstCleared_path s'
    obtain ⟨stays, returns⟩ := srstDone_returns s'
    have withdrawn := srstCleared_withdrawn s'
    refine ⟨srstDone s', ?_, ?_, kept.pins (by decide), ?_, by rw [path], by rw [path], by rw [path], ?_, ?_,
      fun once => ?_, ?_,
      ?_, ?_, buffer, ?_, ?_, ?_, stays, returns, srstDone_watch s'⟩
    · exact (if_neg (by simp [low])).trans (onPart_out (s := s') out systemReset)
    · constructor <;> simp [srstDone, srstCleared, s']
    · simp [serviceState, kept.pins (by decide), s']
    · rw [path]; exact left
    · rw [path]; exact ports
    · rw [path]; exact orphans once
    · rw [path, thinned.path]
    · rw [path, thinned.path]
    · rw [path, thinned.path]
    · rw [link, thinned.link]
    · exact Withdrawn.same (t := srstCleared s') withdrawn (by rw [link]) (by rw [link])
    · rw [remap, srstCleared_remap]; rfl
  · exact (if_pos high).trans (onPart_out (s := { s with pins := { s.pins with srst := false } }) out openDrainWait)
  · exact onPart_leads out (if_pos (by simp [none]))
  · exact onPart_idle (if_neg (by simpa using some))

end Sys2Proof.Machine
end

section
namespace Sys2Proof.Machine

/-! ### What masters wait on is answered (R14, R57, R89) -/

/-- The answer of a WRITE without data. -/
def writeReply (code : ResponseCode) (p : Port) (serial : Nat) : Reply :=
  { port := p, serial := serial, response := { code := code, data := [] } }

/-- The answer of a through-write, if a port still waits for it (R20). -/
def throughReply (code : ResponseCode) (w : ThroughWrite) : List Reply :=
  w.port.toList.map fun p => writeReply code p w.serial

/-- The answer of a system read, unless SRST has discarded its transaction (R6, R89). -/
def readReply (code : ResponseCode) (r : SystemRead) : List Reply :=
  if r.answered then
    [{ port := r.port, serial := r.serial, response := { code := code, data := List.replicate r.size 0#8 } }]
  else []

theorem answerThrough_answered (w : ThroughWrite) (code : ResponseCode) (s : State) :
    Answered (throughReply code w) s (answerThrough w code s) := by
  unfold answerThrough throughReply
  cases w.port with
  | none => exact .same fun _ => rfl
  | some p => exact answer_answered _ _ _ _

theorem refuseRead_answered (r : SystemRead) (code : ResponseCode) (s : State) :
    Answered (readReply code r) s (refuseRead r code s) := by
  unfold refuseRead answerRead readReply
  split
  · exact answer_answered _ _ _ _
  · exact .same fun _ => rfl

theorem answer_thinned (p : Port) (serial : Nat) (x : Response) (s : State) : Thinned s (answer p serial x s) := by
  refine ⟨?_, ?_⟩
  · simp
  · rw [answer_path]

theorem answerThrough_thinned (w : ThroughWrite) (code : ResponseCode) (s : State) :
    Thinned s (answerThrough w code s) := by
  unfold answerThrough
  split
  · exact answer_thinned ..
  · exact .refl s

theorem refuseRead_thinned (r : SystemRead) (code : ResponseCode) (s : State) : Thinned s (refuseRead r code s) := by
  unfold refuseRead answerRead
  split
  · exact answer_thinned ..
  · exact .refl s

theorem answer_lists (p : Port) (serial : Nat) (x : Response) (s : State) :
    (answer p serial x s).path.reads = s.path.reads ∧ (answer p serial x s).path.throughs = s.path.throughs := by
  rw [answer_path]
  exact ⟨rfl, rfl⟩

theorem answerThrough_lists (w : ThroughWrite) (code : ResponseCode) (s : State) :
    (answerThrough w code s).path.reads = s.path.reads
      ∧ (answerThrough w code s).path.throughs = s.path.throughs := by
  unfold answerThrough
  split
  · exact answer_lists ..
  · exact ⟨rfl, rfl⟩

theorem refuseRead_lists (r : SystemRead) (code : ResponseCode) (s : State) :
    (refuseRead r code s).path.reads = s.path.reads ∧ (refuseRead r code s).path.throughs = s.path.throughs := by
  unfold refuseRead answerRead
  split
  · exact answer_lists ..
  · exact ⟨rfl, rfl⟩

/-- The waiting writes are answered and wait no longer (R14, R57). -/
theorem answerWaiting_effect (code : ResponseCode) (s : State) :
    Thinned s (answerWaiting code s)
      ∧ Answered (s.buffer.waiting.flatMap fun w => [writeReply code w.port w.serial]) s (answerWaiting code s)
      ∧ (answerWaiting code s).path.reads = s.path.reads ∧ (answerWaiting code s).path.throughs = s.path.throughs
      ∧ (answerWaiting code s).link = s.link
      ∧ (answerWaiting code s).buffer = { s.buffer with waiting := [] } := by
  have thinned := Thinned.foldl (f := fun t (w : WaitingWrite) =>
      answer w.port w.serial (plainResponse .write 0 code) t)
    (fun t w => answer_thinned ..) s.buffer.waiting s
  refine ⟨⟨thinned.link, thinned.path⟩, Answered.foldl (fun t w => answer_answered _ _ _ _) _ s,
    foldl_unseen (·.path.reads) (fun t w => (answer_lists ..).1) _ s,
    foldl_unseen (·.path.throughs) (fun t w => (answer_lists ..).2) _ s, ?_, ?_⟩
  · exact foldl_unseen (·.link) (fun t w => by simp) _ s
  · simp [answerWaiting]

/-! ### PWARN (R14, R78) -/

/-- What PWARN does to a through-write: it goes on once it has reached the array (R14). -/
def warnAct (w x : ThroughWrite) : Option ThroughWrite := if w.reached then some x else none

/-- The answer that PWARN gives a through-write (R14). -/
def warnReply (w : ThroughWrite) : List Reply := if w.reached then [] else throughReply .retry w

theorem warnThrough_effect (w : ThroughWrite) (s : State) :
    Thinned s (warnThrough w s) ∧ Answered (warnReply w) s (warnThrough w s)
      ∧ (warnThrough w s).path.reads = s.path.reads
      ∧ (warnThrough w s).path.throughs = s.path.throughs.filterMap (atStamp ThroughWrite.serial warnAct w) := by
  unfold warnThrough warnReply
  split
  next reached =>
    refine ⟨.refl s, ?_, rfl, same_atStamp ThroughWrite.serial (fun x => if_pos reached) _⟩
    rw [if_pos (show w.reached = true from reached)]
    exact .same fun _ => rfl
  next unreached =>
    obtain ⟨thinned, queues, throughs, reads⟩ := withdrawThrough_effect w (answerThrough w .retry s)
    obtain ⟨sameReads, same⟩ := answerThrough_lists w .retry s
    rw [if_neg (show ¬w.reached = true from unreached)]
    refine ⟨thinned.after (answerThrough_thinned ..), ?_, reads.trans sameReads, ?_⟩
    · have answered := (Answered.same queues).after (answerThrough_answered w .retry s)
      rwa [List.append_nil] at answered
    · rw [throughs, same]
      exact filter_atStamp ThroughWrite.serial (fun x => if_neg unreached) _

/-- What PWARN leaves before the part settles (R14). -/
def warned (s : State) : State := answerWaiting .retry (s.path.throughs.foldl (fun t w => warnThrough w t) s)

theorem powerWarning_eq (s : State) : powerWarning s = settle (warned s) := rfl

theorem warned_effect (s : State) :
    Thinned s (warned s)
      ∧ Answered (s.path.throughs.flatMap warnReply
          ++ s.buffer.waiting.flatMap fun w => [writeReply .retry w.port w.serial]) s (warned s)
      ∧ (warned s).path.reads = s.path.reads
      ∧ ((s.path.throughs.map (·.serial)).Nodup → (warned s).path.throughs = s.path.throughs.filter (·.reached))
      ∧ (warned s).buffer = { s.buffer with waiting := [] } := by
  have buffer : (s.path.throughs.foldl (fun t w => warnThrough w t) s).buffer = s.buffer :=
    foldl_unseen (·.buffer) (fun t w => by simp) _ s
  obtain ⟨thinned, answered, reads, throughs, link, left⟩ :=
    answerWaiting_effect .retry (s.path.throughs.foldl (fun t w => warnThrough w t) s)
  rw [buffer] at answered left
  refine ⟨thinned.after (.foldl (fun t w => (warnThrough_effect w t).1) _ s),
    answered.after (.foldl (fun t w => (warnThrough_effect w t).2.1) _ s),
    reads.trans (foldl_unseen (·.path.reads) (fun t w => (warnThrough_effect w t).2.2.1) _ s), fun once => ?_, left⟩
  rw [warned, throughs, foldl_view (·.path.throughs)
    (fun ys w => ys.filterMap (atStamp ThroughWrite.serial warnAct w)) (fun _ => True)
    (fun t w _ => have ⟨_, _, _, acted⟩ := warnThrough_effect w t; ⟨trivial, acted⟩) _ trivial, foldl_own ?_ once,
      ← List.filterMap_eq_filter]
  · rfl
  · intro w x y acted
    unfold warnAct at acted
    split at acted
    · cases acted
      rfl
    · cases acted

theorem warned_frame (s : State) : Keeps [.path, .buffer, .link] s (warned s) := by
  constructor <;> simp [warned]

theorem warned_withdrawn (s : State) : Withdrawn [] (s.path.throughs.filter fun t => !t.reached) s (warned s) := by
  obtain ⟨-, -, -, -, link, -⟩ :=
    answerWaiting_effect .retry (s.path.throughs.foldl (fun t w => warnThrough w t) s)
  exact (warnThroughs_withdrawn s s.path.throughs).same (by rw [warned, link]) (by rw [warned, link])

theorem mem_throughReply (code : ResponseCode) (w : ThroughWrite) (r : Reply) :
    r ∈ throughReply code w ↔ ∃ p, w.port = some p ∧ r = writeReply code p w.serial := by
  simp [throughReply, eq_comm]

theorem mem_warnReply (w : ThroughWrite) (r : Reply) :
    r ∈ warnReply w ↔ w.reached = false ∧ ∃ p, w.port = some p ∧ r = writeReply .retry p w.serial := by
  cases reached : w.reached <;> simp [warnReply, reached, mem_throughReply]

/-- The answers that PWARN gives, to the through-writes and to the waiting writes (R14). -/
theorem mem_warned_replies (s : State) (r : Reply) :
    r ∈ (s.path.throughs.flatMap warnReply ++ s.buffer.waiting.flatMap fun w => [writeReply .retry w.port w.serial]) ↔
      (∃ w ∈ s.path.throughs, w.reached = false ∧ ∃ p, w.port = some p ∧ r = writeReply .retry p w.serial)
        ∨ ∃ w ∈ s.buffer.waiting, r = writeReply .retry w.port w.serial := by
  simp only [List.mem_append, List.mem_flatMap, mem_warnReply, List.mem_singleton]

/-- Every transaction that PWARN answers is answered RETRY without data (R14). -/
theorem warned_queues (s : State) (p : Port) :
    queueOf (warned s) p =
      answeredAll
        ((s.buffer.waiting.filter fun w => w.port = p).map (·.serial)
          ++ (s.path.throughs.filter fun t => !t.reached && decide (t.port = some p)).map (·.serial))
        .retry (queueOf s p) := by
  obtain ⟨-, answered, -⟩ := warned_effect s
  rw [answered p]
  refine map_foldl_reply p .retry _ (fun r hr => ?_) (fun n => ?_) _
  · rcases (mem_warned_replies s r).mp hr with ⟨w, -, -, q, -, rfl⟩ | ⟨w, -, rfl⟩ <;> rfl
  · simp only [List.mem_append (s := List.map _ _), List.mem_map, List.mem_filter, Bool.and_eq_true, Bool.not_eq_true',
      decide_eq_true_eq]
    constructor
    · rintro (⟨w, ⟨hw, port⟩, stamp⟩ | ⟨w, ⟨hw, unreached, port⟩, stamp⟩)
      · exact ⟨_, (mem_warned_replies s _).mpr (.inr ⟨w, hw, rfl⟩), port, stamp⟩
      · exact ⟨_, (mem_warned_replies s _).mpr (.inl ⟨w, hw, unreached, p, port, rfl⟩), rfl, stamp⟩
    · rintro ⟨r, given, here, stamp⟩
      rcases (mem_warned_replies s r).mp given with ⟨w, hw, unreached, q, port, rfl⟩ | ⟨w, hw, rfl⟩
      · exact .inr ⟨w, ⟨hw, unreached, by rw [port, show q = p from here]⟩, stamp⟩
      · exact .inl ⟨w, ⟨hw, here⟩, stamp⟩

/-- Settles O28: PWARN's work block by block, and its release. -/
theorem powerWarningTurnsWaitingWritesAway : Obligations.PowerWarningTurnsWaitingWritesAway := by
  intro s out away
  refine ⟨fun high => if_pos high, fun low => ?_, rfl⟩
  let s' : State := { s with pins := { s.pins with pwarn := true } }
  obtain ⟨thinned, -, reads, throughs, buffer⟩ := warned_effect s'
  refine ⟨warned s', ?_, ?_, (warned_frame s').pins (by decide), buffer, fun p => ?_, ?_, throughs, thinned.link,
    warned_withdrawn s'⟩
  · exact (if_neg (by simp [low])).trans (onPart_out (s := s') out powerWarning)
  · constructor <;> simp [warned, s']
  · refine (warned_queues s' p).trans ?_
    cases p <;> rfl
  · rw [thinned.path, reads]

end Sys2Proof.Machine
end

section
namespace Sys2Proof.Machine

/-! ### AGNT (R83 to R87, R91) -/

theorem areq_iff (s : State) :
    areq s = true ↔
      s.pins.porst = false ∧ (s.link.work ≠ [] ∨ s.link.inFlight.isSome = true ∨ s.link.unavailable = true) := by
  simp [areq, or_assoc]

/-- The five link states (R84). -/
theorem linkState_iff (s : State) :
    (linkState s = .operating ↔ s.link.inFlight.isSome = true)
      ∧ (linkState s = .unavailable ↔ s.link.inFlight = none ∧ s.link.unavailable = true)
      ∧ (linkState s = .granted ↔
        s.link.inFlight = none ∧ s.link.unavailable = false ∧ s.link.work ≠ [] ∧ s.pins.agnt = true)
      ∧ (linkState s = .requesting ↔
        s.link.inFlight = none ∧ s.link.unavailable = false ∧ s.link.work ≠ [] ∧ s.pins.agnt = false)
      ∧ (linkState s = .idle ↔ s.link.inFlight = none ∧ s.link.unavailable = false ∧ s.link.work = []) := by
  unfold linkState
  cases s.link.inFlight with
  | some o => simp
  | none =>
    cases s.link.unavailable
    · cases s.link.work with
      | nil => simp
      | cons o work => cases s.pins.agnt <;> simp
    · simp

/-- AGNT's rise, whether or not the link was unavailable (R87, R91). -/
theorem grantReturns_eq (s : State) :
    grantReturns s =
      { s with
        link := { s.link with unavailable := false, waitTicks := 0 }
        events := if s.link.unavailable then s.events.post .available else s.events } := by
  unfold grantReturns
  cases s.link.unavailable <;> rfl

theorem grantFalls_idle {s : State} (idle : s.link.inFlight = none) : grantFalls s = s := by
  rw [grantFalls, idle]

theorem grantFalls_flying {s : State} {o : ArrayOp} (flying : s.link.inFlight = some o) :
    grantFalls s =
      { s with
        link := { s.link with work := o :: s.link.work, inFlight := none, waitTicks := 0 }
        events := s.events.post .grantWithdrawn } := by
  rw [grantFalls, flying]
  rfl

/-- Settles O29: the two edges of AGNT. -/
theorem grantFollowsItsPin : Obligations.GrantFollowsItsPin := by
  refine ⟨fun s => ⟨areq_iff s, linkState_iff s⟩, fun s out => ⟨fun high => if_pos high, fun low => ?_, fun low => ?_,
    fun high idle => ?_, fun o high flying => ?_⟩⟩
  · refine (if_neg (by simp [low])).trans ?_
    exact onPart_leads (s := { s with pins := { s.pins with agnt := true } }) out (grantReturns_eq _)
  · exact if_neg (by simp [low])
  · refine (if_pos high).trans ?_
    exact onPart_leads (s := { s with pins := { s.pins with agnt := false } }) out (grantFalls_idle idle)
  · refine (if_pos high).trans ?_
    exact onPart_leads (s := { s with pins := { s.pins with agnt := false } }) out (grantFalls_flying flying)

/-! ### The grant wait expiry (R57, R74, R89) -/

theorem grantWait_iff (s : State) :
    grantWait s = true ↔
      s.link.work ≠ [] ∧ s.pins.agnt = false ∧ s.link.unavailable = false ∧ s.metaCtl.phase.starting = false := by
  simp [grantWait, and_assoc]

theorem grantExpired_iff (s : State) :
    grantExpired s = true ↔
      s.link.work ≠ [] ∧ s.pins.agnt = false ∧ s.link.unavailable = false ∧ s.metaCtl.phase.starting = false
        ∧ s.link.limit ≠ 0 ∧ s.link.limit * 10 ≤ s.link.waitTicks := by
  rw [grantExpired, Bool.and_eq_true, grantWait_iff, decide_eq_true_iff]
  simp only [and_assoc]

/-- What the expiry does to a through-write that a port waits for (R74). -/
def expireAct (w x : ThroughWrite) : Option ThroughWrite :=
  match w.port with
  | none => some x
  | some _ => if w.listed then some { x with port := none } else none

theorem orphanThrough_thinned (w : ThroughWrite) (s : State) : Thinned s (orphanThrough w s) := ⟨rfl, rfl⟩

theorem expireThrough_effect (w : ThroughWrite) (s : State) :
    Thinned s (expireThrough w s) ∧ Answered (throughReply .unavailable w) s (expireThrough w s)
      ∧ (expireThrough w s).path.reads = s.path.reads
      ∧ (expireThrough w s).path.throughs =
          s.path.throughs.filterMap (atStamp ThroughWrite.serial expireAct w) := by
  have answered := answerThrough_answered w .unavailable s
  have answers := answerThrough_thinned w .unavailable s
  obtain ⟨reads, throughs⟩ := answerThrough_lists w .unavailable s
  cases port : w.port with
  | none =>
    have act : ∀ x, expireAct w x = some x := fun x => by rw [expireAct, port]
    have none : expireThrough w s = s := by rw [expireThrough, port]
    have silent : throughReply .unavailable w = [] := by rw [throughReply, port]; rfl
    rw [none, silent]
    exact ⟨.refl s, .same fun _ => rfl, rfl, same_atStamp ThroughWrite.serial act _⟩
  | some p =>
    cases listed : w.listed with
    | true =>
      have act : ∀ x, expireAct w x = some { x with port := none } := fun x => by simp [expireAct, port, listed]
      have orphaned : expireThrough w s = orphanThrough w (answerThrough w .unavailable s) := by
        simp [expireThrough, port, listed]
      have queues : Answered [] (answerThrough w .unavailable s) (orphanThrough w (answerThrough w .unavailable s)) :=
        .same fun p => by cases p <;> rfl
      have both := queues.after answered
      rw [List.append_nil] at both
      rw [orphaned]
      refine ⟨(orphanThrough_thinned w _).after answers, both, reads, ?_⟩
      rw [← throughs]
      exact map_atStamp (f := fun x => { x with port := none }) ThroughWrite.serial act _
    | false =>
      have act : ∀ x, expireAct w x = none := fun x => by simp [expireAct, port, listed]
      have withdrawn : expireThrough w s = withdrawThrough w (answerThrough w .unavailable s) := by
        simp [expireThrough, port, listed]
      obtain ⟨thinned, queues, left, readsLeft⟩ := withdrawThrough_effect w (answerThrough w .unavailable s)
      have both := (Answered.same queues).after answered
      rw [List.append_nil] at both
      rw [withdrawn]
      refine ⟨thinned.after answers, both, readsLeft.trans reads, ?_⟩
      rw [left, throughs]
      exact filter_atStamp ThroughWrite.serial act _

/-- The expiry ends every read, with its answer (R89). -/
theorem expireRead_effect (r : SystemRead) (s : State) :
    Thinned s (withdrawRead r (refuseRead r .unavailable s))
      ∧ Answered (readReply .unavailable r) s (withdrawRead r (refuseRead r .unavailable s))
      ∧ (withdrawRead r (refuseRead r .unavailable s)).path.throughs = s.path.throughs
      ∧ (withdrawRead r (refuseRead r .unavailable s)).path.reads =
          s.path.reads.filterMap (atStamp SystemRead.serial (fun _ _ => none) r) := by
  obtain ⟨thinned, queues, left, throughs⟩ := withdrawRead_effect r (refuseRead r .unavailable s)
  obtain ⟨reads, same⟩ := refuseRead_lists r .unavailable s
  have both := (Answered.same queues).after (refuseRead_answered r .unavailable s)
  rw [List.append_nil] at both
  refine ⟨thinned.after (refuseRead_thinned ..), both, throughs.trans same, ?_⟩
  rw [left, reads]
  exact filter_atStamp SystemRead.serial (fun _ => rfl) _

/-- The link is unavailable, and nothing has been answered yet (R89). -/
def turnedUnavailable (s : State) : State :=
  post .unavailable { s with link := { s.link with unavailable := true, waitTicks := 0 } }

/-- The state after the reads have ended (R89). -/
def readsExpired (s : State) : State :=
  s.path.reads.foldl (fun t r => withdrawRead r (refuseRead r .unavailable t)) (turnedUnavailable s)

/-- The state after the through-writes have been answered (R74, R89). -/
def throughsExpired (s : State) : State :=
  (readsExpired s).path.throughs.foldl (fun t w => expireThrough w t) (readsExpired s)

theorem expire_eq (s : State) : expire s = answerWaiting .unavailable (throughsExpired s) := rfl

theorem readsExpired_effect (s : State) :
    Thinned (turnedUnavailable s) (readsExpired s)
      ∧ Answered (s.path.reads.flatMap (readReply .unavailable)) s (readsExpired s)
      ∧ (readsExpired s).path.throughs = s.path.throughs ∧ (readsExpired s).path.reads = [] := by
  refine ⟨.foldl (fun t r => (expireRead_effect r t).1) _ _,
    Answered.foldl (fun t r => (expireRead_effect r t).2.1) _ (turnedUnavailable s),
    foldl_unseen (·.path.throughs) (fun t r => (expireRead_effect r t).2.2.1) _ _, ?_⟩
  rw [readsExpired, foldl_view (·.path.reads)
    (fun ys r => ys.filterMap (atStamp SystemRead.serial (fun _ _ => none) r)) (fun _ => True)
    (fun t r _ => have ⟨_, _, _, left⟩ := expireRead_effect r t; ⟨trivial, left⟩) _ trivial]
  refine (foldl_stable (act := fun _ _ => none) (g := fun _ => none) (fun _ _ _ => rfl) (fun _ _ h => by cases h)
    _).trans ?_
  simp

theorem throughsExpired_effect (s : State) :
    Thinned (turnedUnavailable s) (throughsExpired s)
      ∧ Answered (s.path.reads.flatMap (readReply .unavailable) ++ s.path.throughs.flatMap (throughReply .unavailable))
        s
          (throughsExpired s)
      ∧ (throughsExpired s).path.reads = [] ∧ (∀ x ∈ (throughsExpired s).path.throughs, x.port = none)
      ∧ ((s.path.throughs.map (·.serial)).Nodup →
        (throughsExpired s).path.throughs =
          (s.path.throughs.filter fun x => x.port.isNone || x.listed).map fun x => { x with port := none }) := by
  obtain ⟨thinned, answered, throughs, reads⟩ := readsExpired_effect s
  have given : Answered ((readsExpired s).path.throughs.flatMap (throughReply .unavailable)) (readsExpired s)
      (throughsExpired s) := Answered.foldl (fun t w => (expireThrough_effect w t).2.1) _ _
  have left : (throughsExpired s).path.throughs
      = s.path.throughs.foldl (fun ys w => ys.filterMap (atStamp ThroughWrite.serial expireAct w)) s.path.throughs := by
    rw [throughsExpired, foldl_view (·.path.throughs)
      (fun ys w => ys.filterMap (atStamp ThroughWrite.serial expireAct w)) (fun _ => True)
      (fun t w _ => have ⟨_, _, _, left⟩ := expireThrough_effect w t; ⟨trivial, left⟩) _ trivial, throughs]
  have acts (w x y : ThroughWrite) (acted : expireAct w x = some y) :
      y.serial = x.serial ∧ (y = x ∧ w.port = none ∨ y.port = none) := by
    unfold expireAct at acted
    split at acted
    next port =>
      cases acted
      exact ⟨rfl, .inl ⟨rfl, port⟩⟩
    next =>
      split at acted
      · cases acted
        exact ⟨rfl, .inr rfl⟩
      · cases acted
  rw [throughs] at given
  refine ⟨(Thinned.foldl (fun t w => (expireThrough_effect w t).1) _ _).after thinned, given.after answered, ?_, ?_,
    fun once => ?_⟩
  · rw [throughsExpired, foldl_unseen (·.path.reads) (fun t w => (expireThrough_effect w t).2.2.1)]
    exact reads
  · rw [left]
    refine mem_foldl_own (P := fun x : ThroughWrite => x.port = none) (fun x y acted => ?_) (fun w x y acted => ?_)
      (fun w x y acted px => ?_) _
    · rcases (acts x x y acted).2 with ⟨rfl, port⟩ | port <;> exact port
    · exact (acts w x y acted).2.imp_left fun h => h.1
    · rcases (acts w x y acted).2 with ⟨rfl, -⟩ | port
      · exact px
      · exact port
  · rw [left, foldl_own (fun w x y acted => (acts w x y acted).1) once, ← filterMap_ite]
    refine List.filterMap_congr fun x _ => ?_
    obtain ⟨serial, port, stage, course, issued, listed⟩ := x
    cases port <;> simp [expireAct]

/-- What the expiry leaves before the part settles (R89). -/
theorem expire_effect (s : State) :
    Thinned (turnedUnavailable s) (expire s)
      ∧ Answered (s.path.reads.flatMap (readReply .unavailable) ++ s.path.throughs.flatMap (throughReply .unavailable)
          ++ s.buffer.waiting.flatMap fun w => [writeReply .unavailable w.port w.serial]) s (expire s)
      ∧ (expire s).path.reads = [] ∧ (∀ x ∈ (expire s).path.throughs, x.port = none)
      ∧ ((s.path.throughs.map (·.serial)).Nodup →
        (expire s).path.throughs =
          (s.path.throughs.filter fun x => x.port.isNone || x.listed).map fun x => { x with port := none })
      ∧ (expire s).buffer = { s.buffer with waiting := [] } ∧ (expire s).link = (throughsExpired s).link := by
  obtain ⟨thinned, answered, reads, ports, throughs⟩ := throughsExpired_effect s
  obtain ⟨last, waiting, sameReads, same, link, buffer⟩ := answerWaiting_effect .unavailable (throughsExpired s)
  have before : (throughsExpired s).buffer = s.buffer := by simp [throughsExpired, readsExpired, turnedUnavailable]
  rw [before] at waiting buffer
  rw [expire_eq]
  exact ⟨last.after thinned, waiting.after answered, sameReads.trans reads, by rw [same]; exact ports,
    fun once => same.trans (throughs once), buffer, link⟩

/-- What the expiry withdraws (R74, R89, R94). -/
theorem expire_withdrawn (s : State) :
    Withdrawn s.path.reads (s.path.throughs.filter fun x => x.port.isSome && !x.listed) s (expire s) := by
  have start : Withdrawn [] [] s (turnedUnavailable s) := (Withdrawn.refl s).same rfl rfl
  obtain ⟨-, reads⟩ := Withdrawn.reads_foldl (fun _ => True) (fun _ => true)
    (fun r t => withdrawRead r (refuseRead r .unavailable t))
    (fun r reads t _ gone => ⟨trivial,
      (gone.same (by simp) (by simp)).read r⟩)
    s.path.reads [] (turnedUnavailable s) trivial start
  obtain ⟨-, -, throughs, -⟩ := readsExpired_effect s
  have both := expireThroughs_withdrawn (by simpa using reads) (readsExpired s).path.throughs
  rw [throughs] at both
  obtain ⟨-, -, -, -, -, -, link⟩ := expire_effect s
  rw [← throughs] at both ⊢
  exact both.same (t := throughsExpired s) (by rw [link]) (by rw [link])

theorem mem_readReplies (code : ResponseCode) (l : List SystemRead) (x : Reply) :
    x ∈ l.flatMap (readReply code) ↔
      ∃ r ∈ l, r.answered = true
        ∧ x = { port := r.port, serial := r.serial, response :=
          { code := code, data := List.replicate r.size 0#8 } } := by
  rw [List.mem_flatMap]
  refine exists_congr fun r => and_congr_right fun _ => ?_
  cases answered : r.answered <;> simp [readReply, answered]

/-- The answers that the expiry gives to WRITEs (R57, R74). -/
theorem mem_expiredWrites (s : State) (x : Reply) :
    x ∈ s.path.throughs.flatMap (throughReply .unavailable)
        ++ s.buffer.waiting.flatMap (fun w => [writeReply .unavailable w.port w.serial]) ↔
      (∃ w ∈ s.path.throughs, ∃ p, w.port = some p ∧ x = writeReply .unavailable p w.serial)
        ∨ ∃ w ∈ s.buffer.waiting, x = writeReply .unavailable w.port w.serial := by
  simp only [List.mem_append, List.mem_flatMap, mem_throughReply, List.mem_singleton]

/-- A WRITE's transaction is one that a through-write or a waiting write stands for (R57, R74). -/
def ExpiredWrite (s : State) (p : Port) (serial : Nat) : Prop :=
  (∃ x ∈ s.path.throughs, x.port = some p ∧ x.serial = serial)
    ∨ ∃ w ∈ s.buffer.waiting, w.port = p ∧ w.serial = serial

theorem expiredWrite_iff (s : State) (p : Port) (serial : Nat) :
    (∃ x ∈ s.path.throughs.flatMap (throughReply .unavailable)
        ++ s.buffer.waiting.flatMap (fun w => [writeReply .unavailable w.port w.serial]),
          x.port = p ∧ x.serial = serial)
      ↔ ExpiredWrite s p serial := by
  constructor
  · rintro ⟨x, given, here, stamp⟩
    rcases (mem_expiredWrites s x).mp given with ⟨w, hw, q, port, rfl⟩ | ⟨w, hw, rfl⟩
    · exact .inl ⟨w, hw, by rw [port, show q = p from here], stamp⟩
    · exact .inr ⟨w, hw, here, stamp⟩
  · rintro (⟨w, hw, port, stamp⟩ | ⟨w, hw, port, stamp⟩)
    · exact ⟨_, (mem_expiredWrites s _).mpr (.inl ⟨w, hw, p, port, rfl⟩), rfl, stamp⟩
    · exact ⟨_, (mem_expiredWrites s _).mpr (.inr ⟨w, hw, rfl⟩), port, stamp⟩

/-- What the expiry makes of a transaction of a queue (R1, R3, R57, R89). -/
def expiredStand (s : State) (p : Port) (x : Taken) : Taken :=
  (s.path.throughs.flatMap (throughReply .unavailable)
      ++ s.buffer.waiting.flatMap fun w => [writeReply .unavailable w.port w.serial]).foldl (Reply.to p)
    ((s.path.reads.flatMap (readReply .unavailable)).foldl (Reply.to p) x)

theorem expire_queues (s : State) (p : Port) : queueOf (expire s) p = (queueOf s p).map (expiredStand s p) := by
  obtain ⟨-, answered, -⟩ := expire_effect s
  rw [answered p, List.append_assoc]
  exact List.map_congr_left fun x _ => List.foldl_append

theorem expiredStand_order (s : State) (p : Port) (x : Taken) :
    (expiredStand s p x).serial = x.serial ∧ (expiredStand s p x).tx = x.tx := by
  obtain ⟨serial, tx, -⟩ := foldl_reply p (s.path.reads.flatMap (readReply .unavailable)) x
  obtain ⟨serial', tx', -⟩ := foldl_reply p _ ((s.path.reads.flatMap (readReply .unavailable)).foldl (Reply.to p) x)
  exact ⟨serial'.trans serial, tx'.trans tx⟩

/-- A WRITE is answered UNAVAILABLE without data (R57, R74). -/
theorem expiredStand_write {s : State} {p : Port} {x : Taken} (write : ExpiredWrite s p x.serial) :
    (expiredStand s p x).stand = .decided { code := .unavailable, data := [] } := by
  obtain ⟨serial, -⟩ := foldl_reply p (s.path.reads.flatMap (readReply .unavailable)) x
  obtain ⟨-, -, -, decided⟩ := foldl_reply p (s.path.throughs.flatMap (throughReply .unavailable)
      ++ s.buffer.waiting.flatMap fun w => [writeReply .unavailable w.port w.serial])
    ((s.path.reads.flatMap (readReply .unavailable)).foldl (Reply.to p) x)
  rw [serial] at decided
  obtain ⟨r, hr, -, -, stand⟩ := decided ((expiredWrite_iff s p _).mpr write)
  refine stand.trans ?_
  rcases (mem_expiredWrites s r).mp hr with ⟨w, -, q, -, rfl⟩ | ⟨w, -, rfl⟩ <;> rfl

/-- What no WRITE waits for stands as the reads' answers leave it (R89). -/
theorem expiredStand_other {s : State} {p : Port} {x : Taken} (other : ¬ExpiredWrite s p x.serial) :
    expiredStand s p x = (s.path.reads.flatMap (readReply .unavailable)).foldl (Reply.to p) x := by
  obtain ⟨serial, -⟩ := foldl_reply p (s.path.reads.flatMap (readReply .unavailable)) x
  obtain ⟨-, -, apart, -⟩ := foldl_reply p (s.path.throughs.flatMap (throughReply .unavailable)
      ++ s.buffer.waiting.flatMap fun w => [writeReply .unavailable w.port w.serial])
    ((s.path.reads.flatMap (readReply .unavailable)).foldl (Reply.to p) x)
  rw [serial] at apart
  exact apart fun r hr here => other ((expiredWrite_iff s p _).mp ⟨r, hr, here⟩)

/-- Settles O30: the expiry's condition, and its work block by block. -/
theorem grantWaitExpiryAnswersUnavailable : Obligations.GrantWaitExpiryAnswersUnavailable := by
  intro s out writes awaited
  refine ⟨grantExpired_iff s, fun early => onPart_idle (if_neg (by simp [early])), fun expired => ?_⟩
  obtain ⟨thinned, -, reads, ports, throughs, buffer, -⟩ := expire_effect s
  have isWrite (p : Port) (n : Nat) : writes p n ↔ ExpiredWrite s p n := Iff.rfl
  refine ⟨expire s, onPart_leads out (if_pos expired), ?_, ?_, buffer, thinned.link, expire_withdrawn s, ?_, ports,
    throughs, fun p => ?_, fun p t ht => ?_, fun p i t ht others => ?_⟩
  · constructor <;> simp
  · simp [expire]
  · rw [thinned.path, reads]
    rfl
  · rw [expire_queues, List.map_map]
    refine List.map_congr_left fun x _ => ?_
    obtain ⟨serial, tx⟩ := expiredStand_order s p x
    simp [serial, tx]
  · rw [expire_queues] at ht
    obtain ⟨x, hx, rfl⟩ := List.mem_map.mp ht
    obtain ⟨serial, -⟩ := expiredStand_order s p x
    rw [serial]
    refine ⟨fun write => expiredStand_write write, fun waits other => ?_⟩
    obtain ⟨r, hr, answered, port, stamp⟩ := waits.resolve_right other
    obtain ⟨-, -, -, decided⟩ := foldl_reply p (s.path.reads.flatMap (readReply .unavailable)) x
    obtain ⟨y, hy, here, same, stand⟩ :=
      decided ⟨_, (mem_readReplies .unavailable _ _).mpr ⟨r, hr, answered, rfl⟩, port, stamp⟩
    obtain ⟨q, hq, given, rfl⟩ := (mem_readReplies .unavailable _ _).mp hy
    exact ⟨q, hq, given, here, same, by rw [expiredStand_other other]; exact stand⟩
  · rw [expire_queues, List.getElem?_map, ht, Option.map_some, expiredStand_other fun h => others (.inr h)]
    obtain ⟨-, -, apart, -⟩ := foldl_reply p (s.path.reads.flatMap (readReply .unavailable)) t
    refine congrArg some (apart fun y hy here => others (.inl ?_))
    obtain ⟨r, hr, answered, rfl⟩ := (mem_readReplies .unavailable _ _).mp hy
    exact ⟨r, hr, answered, here⟩

end Sys2Proof.Machine
end

section
namespace Sys2Proof.Machine

/-! ### The end of READ_READY (R59, R87, R157, R166, R167) -/

theorem lineDraining_isNone (s : State) (line : Nat) :
    (lineDraining s line).isNone = true ↔ ∀ x ∈ s.buffer.entries, x.line = line → x.state ≠ .draining := by
  simp [lineDraining, List.find?_eq_none]

theorem lineUnclaimed_iff (s : State) (line : Nat) :
    lineUnclaimed s line = true ↔ claimRecord s line = { holders := .shared [], waiting := [] } := by
  rw [lineUnclaimed, Bool.and_eq_true, List.isEmpty_iff]
  constructor
  · rintro ⟨none, first⟩
    cases record : claimRecord s line
    rw [record] at none first
    exact congrArg₂ ClaimRecord.mk (holders_of_isNone none) first
  · intro record
    rw [record]
    exact ⟨rfl, rfl⟩

theorem repairOutstanding_iff (s : State) :
    repairOutstanding s = true ↔
      ∃ o, (o ∈ s.link.work ∨ s.link.inFlight = some o)
        ∧ ∃ l askers, o.purpose = .metaProgram l askers ∧ MetaAsker.repair ∈ askers := by
  have asks (o : ArrayOp) : (match o.purpose with
      | .metaProgram _ askers => askers.contains .repair
      | _ => false) = true ↔ ∃ l askers, o.purpose = .metaProgram l askers ∧ MetaAsker.repair ∈ askers := by
    cases o.purpose <;> simp
  simp only [repairOutstanding, Bool.or_eq_true, List.any_eq_true, Option.any_eq_true]
  constructor
  · rintro (⟨o, member, asked⟩ | ⟨o, flying, asked⟩)
    · exact ⟨o, .inl member, (asks o).mp asked⟩
    · exact ⟨o, .inr flying, (asks o).mp asked⟩
  · rintro ⟨o, member | flying, asked⟩
    · exact .inl ⟨o, member, (asks o).mpr asked⟩
    · exact .inr ⟨o, flying, (asks o).mpr asked⟩

/-- A metadata program that none pending can be joined with is placed behind the pending work (R157). -/
theorem requestMeta_placed {l : MetaLine} {s : State} (a : MetaAsker)
    (apart : ∀ o ∈ s.link.work, o.issued = false → ∀ as, o.purpose ≠ .metaProgram l as) :
    requestMeta l a s =
      { s with
        link :=
          { s.link with
            work :=
              s.link.work
                ++ [{ purpose := .metaProgram l [a], arrayLine := metaArrayLine s l, action := .compose, first := false
                      issued := false }] } } := by
  have none : s.link.work.any (fun o => o.joins l) = false := by
    rw [List.any_eq_false]
    intro o member joins
    unfold ArrayOp.joins at joins
    split at joins
    next u as program =>
      rw [Bool.and_eq_true, decide_eq_true_iff, Bool.not_eq_true'] at joins
      exact apart o member joins.2 as (by rw [program, joins.1])
    next => cases joins
  rw [requestMeta, if_neg (by simp [none])]
  rfl

/-- What R166 looks for in the buffer and in the pending work. -/
theorem repairTrigger_false_iff (s : State) :
    repairTrigger s = false ↔
      (∀ e ∈ s.buffer.entries, eligible s e = false) ∧ ∀ o ∈ s.link.work, o.isProgram = false := by
  simp [repairTrigger]

/-- The state at entry to REPAIRING, before the repair of the list begins (R166). -/
def repairEntered (s : State) : State :=
  { s with
    metaCtl := { s.metaCtl with phase := .repairing, settleTicks := none }
    events := s.events.post .phaseChange }

/-- Entry to REPAIRING, by the repair list (R166, R167). -/
theorem enterRepairing_eq (s : State) :
    enterRepairing s =
      match s.metaCtl.repair with
      | [] =>
        { s with
          metaCtl := { phase := .fullReady, repair := [], settleTicks := none }
          events := (s.events.post .phaseChange).post .phaseChange }
      | l :: _ => if repairOutstanding s then repairEntered s else requestMeta l .repair (repairEntered s) := by
  cases list : s.metaCtl.repair with
  | nil => exact enterRepairing_nil list
  | cons l rest => exact enterRepairing_cons list

theorem settleExpired_iff (s : State) : settleExpired s = true ↔ ∃ n, s.metaCtl.settleTicks = some n ∧ 20000 ≤ n := by
  unfold settleExpired
  cases s.metaCtl.settleTicks <;> simp [Config.settleTicks]

/-- Settles O31: the two ways out of READ_READY, the settling and the settle timer. -/
theorem readReadyEndsInTheRepair : Obligations.ReadReadyEndsInTheRepair := by
  unfold Obligations.ReadReadyEndsInTheRepair
  intro entered begun timed
  have begins (s : State) : enterRepairing s = begun s := by
    rw [enterRepairing_eq]
    rfl
  refine ⟨fun s => ?_, fun s out => ?_⟩
  · intro still
    refine ⟨fun stays => ?_, fun ends => ?_, grantWait_iff s, fun e => ?_, repairOutstanding_iff s,
      fun l => requestMeta_placed .repair⟩
    · have kept : ¬(s.metaCtl.phase = .readReady ∧ repairTrigger s = true) := by
        rintro ⟨phase, trigger⟩
        rcases stays with other | none
        · exact other phase
        · rw [(repairTrigger_false_iff s).mpr none] at trigger
          cases trigger
      rw [settle_eq, if_neg kept, stopGrantTimer_eq]
    · obtain ⟨phase, work⟩ := not_or.mp ends
      have trigger : repairTrigger s = true := by
        rw [← Bool.not_eq_false, repairTrigger_false_iff]
        exact work
      rw [settle_eq, if_pos ⟨not_not.mp phase, trigger⟩, begins, stopGrantTimer_eq]
    · rw [eligible_iff, lineDraining_isNone, lineUnclaimed_iff]
  · intro due
    have judged : due ↔ s.metaCtl.phase = .readReady ∧ settleExpired s = true := by rw [settleExpired_iff]
    have expires (h : due) : exec .settleTimerExpiry s = .next (enterRepairing s) :=
      onPart_leads out (if_pos (judged.mp h))
    refine ⟨fun early => onPart_idle (if_neg (mt judged.mpr early)), fun h => by rw [expires h, begins],
      fun h list => ?_,
      fun h l rest list idle => ?_⟩
    · rw [expires h, enterRepairing_nil list]
    · rw [expires h, enterRepairing_cons list]
      simp [idle]

/-! ### The patrol timer (R138, R139) -/

/-- A pass that ends (R139). -/
def Patrol.ended (q : Patrol) : Patrol :=
  { q with
    passes := (q.passes + 1) % 65536, cursor := 0
    mode := if q.mode = .singlePass then .stopped else q.mode }

/-- The end of a pass whose timers have been restarted (R139). -/
theorem endPass_eq {s : State} (ticks : s.health.patrol.ticks = 0) (since : s.health.patrol.since = 0) :
    endPass s =
      { s with
        health := { s.health with patrol := s.health.patrol.ended }
        events := s.events.post .patrolPass } := by
  cases mode : s.health.patrol.mode <;> simp [endPass, setPatrol, post, Patrol.ended, mode, ticks, since]

/-- A step whose lines are all passed over ends the pass (R139). -/
theorem patrolStep_none {s : State} (ticks : s.health.patrol.ticks = 0)
    (all : ∀ l, s.health.patrol.cursor ≤ l → l < s.fence.uNative → passedOver s l = true) :
    patrolStep s =
      { s with
        health := { s.health with patrol := { s.health.patrol with since := 0 }.ended }
        events := s.events.post .patrolPass } := by
  let t := setPatrol (fun p => { p with since := 0 }) s
  have none : scanFrom t t.health.patrol.cursor (t.fence.uNative - t.health.patrol.cursor) = none :=
    scanFrom_none t _ _ fun l low high => all l low (by
      have least : s.health.patrol.cursor ≤ l := low
      have most : l < s.health.patrol.cursor + (s.fence.uNative - s.health.patrol.cursor) := high
      omega)
  have ended := endPass_eq (s := t) ticks rfl
  rw [patrolStep]
  simp only [show setPatrol (fun p => { p with since := 0 }) s = t from rfl, none]
  exact ended

/-- The read that a patrol step places (R139). -/
def patrolReadOf (s : State) (line : Nat) : ArrayOp :=
  { purpose := .patrolRead line, arrayLine := mappedLine s line, action := .read, first := false, issued := false }

/-- The state after a step has placed the read of a line (R139). -/
def patrolPlaced (line : Nat) (s : State) : State :=
  { s with
    health :=
      { s.health with
        patrol := { s.health.patrol with since := 0, cursor := line + 1, outstanding := some line } }
    link := { s.link with work := s.link.work ++ [patrolReadOf s line] } }

/-- A step reads the first line that is not passed over, and ends the pass at the last line (R139). -/
theorem patrolStep_found {s : State} {line : Nat} (ticks : s.health.patrol.ticks = 0)
    (above : s.health.patrol.cursor ≤ line) (within : line < s.fence.uNative) (stays : passedOver s line = false)
    (below : ∀ l, s.health.patrol.cursor ≤ l → l < line → passedOver s l = true) :
    patrolStep s =
      if s.fence.uNative ≤ line + 1 then
        { patrolPlaced line s with
          health := { s.health with patrol := (patrolPlaced line s).health.patrol.ended }
          events := s.events.post .patrolPass }
      else patrolPlaced line s := by
  let t := setPatrol (fun p => { p with since := 0 }) s
  have found : scanFrom t t.health.patrol.cursor (t.fence.uNative - t.health.patrol.cursor) = some line :=
    scanFrom_found t line stays _ _ above (by
      show line < s.health.patrol.cursor + (s.fence.uNative - s.health.patrol.cursor)
      omega) below
  have ended := endPass_eq (s := patrolPlaced line s) ticks rfl
  have placed : patrolStep s
      = if s.fence.uNative ≤ line + 1 then endPass (patrolPlaced line s) else patrolPlaced line s := by
    rw [patrolStep]
    simp only [show setPatrol (fun p => { p with since := 0 }) s = t from rfl, found]
    rfl
  rw [placed, ended]
  rfl

/-- Settles O32: the expiry that is early, held back, or acted on as a step. -/
theorem patrolStepsReadTheNextLine : Obligations.PatrolStepsReadTheNextLine := by
  intro s out p held ended read
  have runs (mode : p.mode ≠ .stopped) (due : p.interval ≤ p.ticks) : exec .patrolTimerExpiry s
      = .next (let t := setPatrol (fun p => { p with ticks := 0 }) s
        if s.health.patrol.outstanding.isNone && decide (s.metaCtl.phase = .fullReady) && !s.pins.pwarn then
          patrolStep t else t) :=
    onPart_leads out (if_neg (not_or.mpr ⟨mode, Nat.not_lt.mpr due⟩))
  have free : (s.health.patrol.outstanding.isNone && decide (s.metaCtl.phase = .fullReady) && !s.pins.pwarn) = true
      ↔ ¬held := by
    simp [held, p, and_assoc]
  refine ⟨passedOver_iff s, fun early => onPart_idle (if_pos early), fun mode due holds => ?_,
    fun mode due acts => ⟨fun all => ?_, fun line above within stays below => ?_⟩⟩
  · rw [runs mode due]
    exact congrArg _ (if_neg (mt free.mp (not_not.mpr holds)))
  · rw [runs mode due]
    dsimp only
    rw [if_pos (free.mpr acts), patrolStep_none (s := setPatrol (fun p => { p with ticks := 0 }) s) rfl all]
    rfl
  · intro q
    have stepped := runs mode due
    dsimp only at stepped
    rw [if_pos (free.mpr acts), patrolStep_found (s := setPatrol (fun p => { p with ticks := 0 }) s) rfl above within
      stays below] at stepped
    refine ⟨fun more => ?_, fun last => ?_⟩
    · exact stepped.trans (congrArg _ (if_neg (Nat.not_le.mpr more)))
    · exact stepped.trans (congrArg _ (if_pos (Nat.le_of_eq last.symm)))

end Sys2Proof.Machine
end

section
namespace Sys2Proof.Machine

/-! ### The kinds of work (R68, R96) -/

theorem writer_iff (p : Purpose) (w : Writer) :
    p.writer = some w ↔ p = .mergeRead w ∨ p = .mappedProgram w ∨ p = .storageProgram w ∨ p = .verifyRead w := by
  cases p <;> simp [Purpose.writer]

/-- The first operation of a course is of the kind of its writer (R96). -/
theorem kind_first {s : State} {o : ArrayOp} {w : Writer} (owned : o.purpose.writer = some w) (first : o.first = true) :
    o.kind s =
      match w with
      | .drain => if drainUrgent s then .urgentDrain else .drain
      | .through _ => .throughWrite := by
  obtain ⟨purpose, line, action, f, issued⟩ := o
  cases first
  rcases (writer_iff purpose w).mp owned with rfl | rfl | rfl | rfl <;> cases w <;> rfl

theorem kind_later {s : State} {o : ArrayOp} {w : Writer} (owned : o.purpose.writer = some w)
    (later : o.first = false) :
    o.kind s = .continuation := by
  obtain ⟨purpose, line, action, f, issued⟩ := o
  cases later
  rcases (writer_iff purpose w).mp owned with rfl | rfl | rfl | rfl <;> rfl

/-- The operations that stand for no writer have the kind of their purpose (R96). -/
theorem kind_other (s : State) (o : ArrayOp) :
    ((∃ l, o.purpose = .loadRead l) ∨ (∃ l k, o.purpose = .metaProgram l k) ∨ (∃ n, o.purpose = .formatProgram n) →
        o.kind s = .metadata)
      ∧ (o.purpose = .spareProgram → o.kind s = .continuation)
      ∧ (∀ n, o.purpose = .systemRead n → o.kind s = .systemRead)
      ∧ (∀ l, o.purpose = .jobRead l → o.kind s = .relocation)
      ∧ (∀ l, o.purpose = .patrolRead l → o.kind s = .patrol) := by
  refine ⟨?_, fun h => by rw [ArrayOp.kind, h], fun n h => by rw [ArrayOp.kind, h], fun l h => by rw [ArrayOp.kind, h],
    fun l h => by rw [ArrayOp.kind, h]⟩
  rintro (⟨l, h⟩ | ⟨l, k, h⟩ | ⟨n, h⟩) <;> rw [ArrayOp.kind, h]

/-! ### The choice (R97, R98) -/

/-- The operation may be issued now, and is of this kind (R97). -/
def Offered (s : State) (k : WorkKind) (o : ArrayOp) : Prop :=
  o ∈ s.link.work ∧ issuable s o = true ∧ o.kind s = k

/-- The pending operations of a kind that may be issued, in their order. -/
def offers (s : State) (k : WorkKind) : List ArrayOp := s.link.work.filter fun o =>
    issuable s o && decide (o.kind s = k)

theorem mem_offers (s : State) (k : WorkKind) (o : ArrayOp) : o ∈ offers s k ↔ Offered s k o := by
  simp [offers, Offered]

/-- Among the through-writes an abandoned operation goes first, and then the order of the grants (R98). -/
theorem firstOfKind_through (s : State) :
    firstOfKind s .throughWrite =
      (((offers s .throughWrite).find? fun o => o.issued).or
        (s.path.throughs.findSome? fun t =>
          (offers s .throughWrite).find? fun o => decide (o.purpose.writer = some (.through t.serial)))).or
        (offers s .throughWrite).head? := rfl

theorem firstOfKind_other {k : WorkKind} (s : State) (other : k ≠ .throughWrite) :
    firstOfKind s k = (offers s k).head? := by
  cases k with
  | throughWrite => exact absurd rfl other
  | _ => rfl

/-- A kind has a first operation when it has any. -/
theorem firstOfKind_none (s : State) (k : WorkKind) : firstOfKind s k = none ↔ offers s k = [] := by
  by_cases through : k = .throughWrite
  · subst through
    rw [firstOfKind_through, Option.or_eq_none_iff, List.head?_eq_none_iff]
    refine ⟨fun h => h.2, fun h => ⟨?_, h⟩⟩
    simp [h]
  · rw [firstOfKind_other s through, List.head?_eq_none_iff]

theorem firstOfKind_offered {s : State} {k : WorkKind} {o : ArrayOp} (first : firstOfKind s k = some o) :
    Offered s k o := by
  rw [← mem_offers]
  by_cases through : k = .throughWrite
  · subst through
    rw [firstOfKind_through, Option.or_eq_some_iff, Option.or_eq_some_iff] at first
    rcases first with (issued | ⟨-, granted⟩) | ⟨-, head⟩
    · exact List.mem_of_find?_eq_some issued
    · obtain ⟨t, -, found⟩ := List.exists_of_findSome?_eq_some granted
      exact List.mem_of_find?_eq_some found
    · exact List.mem_of_head? head
  · rw [firstOfKind_other s through] at first
    exact List.mem_of_head? first

/-- Out of the through-writes the first of a kind is the first in the pending work (R98). -/
theorem firstOfKind_order {s : State} {k : WorkKind} {o : ArrayOp} (other : k ≠ .throughWrite)
    (first : firstOfKind s k = some o) :
    ∃ before after, s.link.work = before ++ o :: after ∧ ∀ x ∈ before, issuable s x = true → x.kind s ≠ k := by
  rw [firstOfKind_other s other, offers, List.head?_filter, List.find?_eq_some_iff_append] at first
  obtain ⟨-, before, after, work, earlier⟩ := first
  refine ⟨before, after, work, fun x hx may same => ?_⟩
  simpa [may, same] using earlier x hx

/-- An abandoned through-write is issued before the others (R85, R98). -/
theorem firstOfKind_abandoned {s : State} {o : ArrayOp} (first : firstOfKind s .throughWrite = some o)
    (abandoned : ∃ x, Offered s .throughWrite x ∧ x.issued = true) : o.issued = true := by
  obtain ⟨x, offered, issued⟩ := abandoned
  rw [firstOfKind_through] at first
  cases found : (offers s .throughWrite).find? fun o => o.issued with
  | none => exact absurd issued (List.find?_eq_none.mp found x ((mem_offers ..).mpr offered))
  | some y =>
    rw [found] at first
    obtain rfl : y = o := by simpa using first
    exact List.find?_some found

/-- With none abandoned, the first granted through-write that has an operation is served (R98). -/
theorem firstOfKind_granted {s : State} {o : ArrayOp} (first : firstOfKind s .throughWrite = some o)
    (fresh : ∀ x, Offered s .throughWrite x → x.issued = false) {before after : List ThroughWrite} {t : ThroughWrite}
    (throughs : s.path.throughs = before ++ t :: after)
    (here : ∃ x, Offered s .throughWrite x ∧ x.purpose.writer = some (.through t.serial))
    (earlier : ∀ b ∈ before, ¬∃ x, Offered s .throughWrite x ∧ x.purpose.writer = some (.through b.serial)) :
    o.purpose.writer = some (.through t.serial) := by
  have none : (offers s .throughWrite).find? (fun o => o.issued) = none :=
    List.find?_eq_none.mpr fun x hx => by simp [fresh x ((mem_offers ..).mp hx)]
  have skipped : before.findSome? (fun t => (offers s .throughWrite).find? fun o =>
      decide (o.purpose.writer = some (.through t.serial))) = Option.none :=
    List.findSome?_eq_none_iff.mpr fun b hb => List.find?_eq_none.mpr fun x hx owned =>
      earlier b hb ⟨x, (mem_offers ..).mp hx, by simpa using owned⟩
  obtain ⟨x, offered, owned⟩ := here
  obtain ⟨y, found⟩ : ∃ y, (offers s .throughWrite).find? (fun o =>
      decide (o.purpose.writer = some (.through t.serial))) = some y :=
    Option.isSome_iff_exists.mp (List.find?_isSome.mpr ⟨x, (mem_offers ..).mpr offered, by simpa using owned⟩)
  rw [firstOfKind_through, none, throughs, List.findSome?_append, skipped, List.findSome?_cons, found] at first
  obtain rfl : y = o := by simpa using first
  simpa using List.find?_some found

theorem mem_workOrder (k : WorkKind) : k ∈ workOrder := by cases k <;> decide

/-- Nothing is chosen when nothing may be issued (R97). -/
theorem choose_none {s : State} (held : ∀ o ∈ s.link.work, issuable s o = false) : choose s = none := by
  rw [choose, List.findSome?_eq_none_iff]
  refine fun k _ => (firstOfKind_none s k).mpr (List.filter_eq_nil_iff.mpr fun o ho => ?_)
  simp [held o ho]

/-- The operation chosen is the first of its kind, and no kind before it has any (R97). -/
theorem choose_spec {s : State} {o : ArrayOp} (chosen : choose s = some o) :
    firstOfKind s (o.kind s) = some o
      ∧ ∀ x ∈ s.link.work, issuable s x = true → workOrder.idxOf (o.kind s) ≤ workOrder.idxOf (x.kind s) := by
  rw [choose, List.findSome?_eq_some_iff] at chosen
  obtain ⟨before, k, after, order, first, earlier⟩ := chosen
  obtain ⟨-, -, kind⟩ := firstOfKind_offered first
  rw [kind]
  refine ⟨first, fun x hx may => ?_⟩
  have notBefore (j : WorkKind) (some : firstOfKind s j ≠ none) : j ∉ before := fun hj => some (earlier j hj)
  have mine : k ∉ before := notBefore k (by simp [first])
  have others : x.kind s ∉ before := notBefore _ fun none => by
    have member : x ∈ offers s (x.kind s) := (mem_offers ..).mpr ⟨hx, may, rfl⟩
    rw [(firstOfKind_none ..).mp none] at member
    cases member
  rw [order, List.idxOf_append_of_notMem mine, List.idxOf_append_of_notMem others, List.idxOf_cons_self]
  omega

theorem choose_some {s : State} (may : ∃ o ∈ s.link.work, issuable s o = true) : ∃ o, choose s = some o := by
  obtain ⟨o, ho, free⟩ := may
  refine Option.isSome_iff_exists.mp (List.findSome?_isSome_iff.mpr ⟨o.kind s, mem_workOrder _, ?_⟩)
  rw [Option.isSome_iff_ne_none, Ne, firstOfKind_none]
  intro none
  have member : o ∈ offers s (o.kind s) := (mem_offers ..).mpr ⟨ho, free, rfl⟩
  rw [none] at member
  cases member

end Sys2Proof.Machine
end

section
namespace Sys2Proof.Machine

/-! ### The issue (R82, R85, R97, R140, R157) -/

theorem issueNext_idle {s : State}
    (idle : s.link.inFlight.isSome = true ∨ s.pins.agnt = false ∨ ∀ o ∈ s.link.work, issuable s o = false) :
    issueNext s = s := by
  rcases idle with flying | ungranted | held
  · rw [issueNext, if_pos (by simp [flying])]
  · rw [issueNext, if_pos (by simp [ungranted])]
  · rw [issueNext, choose_none held]
    exact ite_self s

theorem issueNext_chosen {s : State} {o : ArrayOp} (free : s.link.inFlight = none) (granted : s.pins.agnt = true)
    (chosen : choose s = some o) : issueNext s = issueOp o s := by
  rw [issueNext, if_neg (by simp [free, granted]), chosen]

/-- An operation that is issued leaves the pending work and is in flight; a through-write's is marked (R6, R82). -/
theorem issueOp_effect (o : ArrayOp) (s : State) :
    Keeps [.link, .path] s (issueOp o s)
      ∧ (issueOp o s).link = { s.link with work := s.link.work.erase o, inFlight := some (atIssue s o) }
      ∧ (∀ n, o.purpose.writer = some (.through n) →
        (issueOp o s).path =
          { s.path with
            throughs := s.path.throughs.map fun x => if x.serial = n then { x with issued := true } else x })
      ∧ ((∀ n, o.purpose.writer ≠ some (.through n)) → (issueOp o s).path = s.path) := by
  refine ⟨by constructor <;> simp, ?_, fun n owned => ?_, fun other => ?_⟩
  · unfold issueOp
    split <;> rfl
  · rw [issueOp, owned]
    rfl
  · unfold issueOp
    split
    next n owned => exact absurd owned (other n)
    next => rfl

/-- A patrol read is resolved at its issue, and no other operation is (R140). -/
theorem atIssue_line (s : State) (o : ArrayOp) :
    (∀ line, o.purpose = .patrolRead line → (atIssue s o).arrayLine = mappedLine s line)
      ∧ ((∀ line, o.purpose ≠ .patrolRead line) → (atIssue s o).arrayLine = o.arrayLine) := by
  obtain ⟨purpose, line, action, first, issued⟩ := o
  constructor
  · rintro l rfl
    cases action <;> rfl
  · intro other
    cases purpose with
    | patrolRead l => exact absurd rfl (other l)
    | _ => cases action <;> rfl

/-- A metadata program is composed at its issue, and no other action changes (R157). -/
theorem atIssue_action (s : State) (o : ArrayOp) :
    (o.action ≠ .compose → (atIssue s o).action = o.action)
      ∧ (∀ t k, o.purpose = .metaProgram t k → o.action = .compose →
        (atIssue s o).action = .program (composeLine s t))
      ∧ (∀ n, o.purpose = .formatProgram n → o.action = .compose →
        (atIssue s o).action = .program (formatContent s n)) := by
  obtain ⟨purpose, line, action, first, issued⟩ := o
  refine ⟨fun other => ?_, ?_, ?_⟩
  · cases action with
    | compose => exact absurd rfl other
    | read => cases purpose <;> rfl
    | program c => cases purpose <;> rfl
  · rintro t k rfl rfl
    rfl
  · rintro n rfl rfl
    rfl

/-! ### The contents of metadata lines (R26, R155, R156, R164) -/

theorem composeLine_regions {j : Nat} (table : 2 ≤ j) (s : State) :
    composeLine s (.settings j) = .regions ((s.tables.storedRegions.drop (4 * (j - 2))).take 4) := by
  obtain ⟨n, rfl⟩ := Nat.exists_eq_add_of_le' table
  rfl

/-- The formatting programs write FREE records, the format defaults, and last the header (R156, R164). -/
theorem formatContent_eq (s : State) (n : Nat) :
    formatContent s n =
      if n < 1024 then .image [.free, .free, .free, .free]
      else if n = 1024 then .classes (List.replicate 4 classDefault)
      else if n < 1029 then .regions (List.replicate 4 regionDefault)
      else .header s.pins.geom s.fence.uNative false false := by
  by_cases image : n < 1024
  · simp [formatContent, formatTarget, image]
  · by_cases settings : n < 1029
    · obtain ⟨k, hk, rfl⟩ : ∃ k, k < 5 ∧ n = 1024 + k := ⟨n - 1024, by omega, by omega⟩
      interval_cases k <;> simp [formatContent, formatTarget]
    · have notClasses : n ≠ 1024 := by omega
      simp [formatContent, formatTarget, image, settings, notClasses]

/-- A system read is placed before the younger ones that have not been abandoned (R98). -/
theorem insertRead_split (op : ArrayOp) (n : Nat) (work : List ArrayOp) :
    ∃ before after, work = before ++ after ∧ insertRead op n work = before ++ op :: after
      ∧ (∀ x ∈ before, ∀ m, x.purpose = .systemRead m → x.issued = false → m ≤ n)
      ∧ ∀ x ∈ after.head?, x.issued = false ∧ ∃ m, n < m ∧ x.purpose = .systemRead m := by
  have serial (o : ArrayOp) (m : Nat) : o.readSerial = some m ↔ o.purpose = .systemRead m ∧ o.issued = false := by
    obtain ⟨purpose, line, action, first, issued⟩ := o
    cases purpose <;> cases issued <;> simp [ArrayOp.readSerial]
  induction work with
  | nil => exact ⟨[], [], rfl, rfl, by simp, by simp⟩
  | cons o rest ih =>
    obtain ⟨before, after, work, placed, older, younger⟩ := ih
    have later (old : ∀ m, o.readSerial = some m → m ≤ n)
        (goes : insertRead op n (o :: rest) = o :: insertRead op n rest) :
        ∃ before after, o :: rest = before ++ after ∧ insertRead op n (o :: rest) = before ++ op :: after
          ∧ (∀ x ∈ before, ∀ m, x.purpose = .systemRead m → x.issued = false → m ≤ n)
          ∧ ∀ x ∈ after.head?, x.issued = false ∧ ∃ m, n < m ∧ x.purpose = .systemRead m := by
      refine ⟨o :: before, after, by rw [work, List.cons_append], by rw [goes, placed, List.cons_append],
        fun x hx m read fresh => ?_, younger⟩
      rcases List.mem_cons.mp hx with rfl | hx
      · exact old m ((serial x m).mpr ⟨read, fresh⟩)
      · exact older x hx m read fresh
    cases stamp : o.readSerial with
    | none => exact later (by simp [stamp]) (by rw [insertRead, stamp])
    | some m =>
      by_cases young : n < m
      · obtain ⟨read, fresh⟩ := (serial o m).mp stamp
        refine ⟨[], o :: rest, rfl, by simp [insertRead, stamp, young], by simp, fun x hx => ?_⟩
        obtain rfl : o = x := by simpa using hx
        exact ⟨fresh, m, young, read⟩
      · exact later (fun k hk => by rw [stamp] at hk; cases hk; omega) (by simp [insertRead, stamp, young])

/-- Settles O33: the kinds of work, the operation issued, and the contents composed. -/
theorem arrayIssueFollowsTheWorkOrder : Obligations.ArrayIssueFollowsTheWorkOrder := by
  refine ⟨rfl, fun s o => ?_, fun s out => ⟨fun idle => onPart_idle (issueNext_idle idle), fun free granted may => ?_,
    fun line => ⟨fun e entry => by rw [mappedLine, entry]; rfl, fun none => by rw [mappedLine, none]⟩, fun k => rfl,
      rfl, rfl,
    fun j table => composeLine_regions table s, formatContent_eq s, insertRead_split⟩⟩
  · obtain ⟨metadata, spare, read, job, patrol⟩ := kind_other s o
    refine ⟨issuable_iff s o, writer_iff o.purpose, metadata, spare, read, job, patrol,
      fun w of later => kind_later ((writer_iff _ w).mpr of) later,
      fun n of first => kind_first ((writer_iff _ _).mpr of) first,
      fun of first => kind_first ((writer_iff _ _).mpr of) first, ?_⟩
    have same : drainingEntry s = s.buffer.entries.find? fun x => decide (x.state = .draining) := by
      simp only [drainingEntry, Bool.beq_eq_decide_eq]
    have urgent := drainUrgent_iff s
    rw [systemCapacity_eq, same] at urgent
    exact urgent
  · obtain ⟨o, chosen⟩ := choose_some may
    obtain ⟨first, order⟩ := choose_spec chosen
    obtain ⟨pending, free', -⟩ := firstOfKind_offered first
    obtain ⟨keeps, link, mine, others⟩ := issueOp_effect o s
    obtain ⟨purpose, early, issued⟩ := atIssue_keeps s o
    obtain ⟨resolved, unresolved⟩ := atIssue_line s o
    obtain ⟨kept, composed, formatted⟩ := atIssue_action s o
    refine ⟨o, issueOp o s, onPart_leads out (issueNext_chosen free granted chosen), pending, free', order,
      fun other => firstOfKind_order other first, fun through => ?_, keeps, link, purpose, issued, early, resolved,
      unresolved, kept, composed, formatted, mine, others⟩
    rw [through] at first
    exact ⟨firstOfKind_abandoned first, fun fresh before t after throughs here earlier =>
      firstOfKind_granted first fresh throughs here earlier⟩

end Sys2Proof.Machine
end

section
namespace Sys2Proof.Machine

/-! ### The operation whose completion is due -/

/-- What the operation in flight is for, where one is due. -/
theorem inFlightFor_due {α : Type} {s : State} {p : Purpose} (due : dueFor s p) (f : Purpose → Option α) :
    inFlightFor s f = f p := by
  obtain ⟨-, o, flying, rfl⟩ := due
  rw [inFlightFor, flying]

theorem readDue_of_due {s : State} {n : Nat} (due : dueFor s (.systemRead n)) : readDue s = some n :=
  inFlightFor_due due _

theorem mergeDue_of_due {s : State} {w : Writer} (due : dueFor s (.mergeRead w)) : mergeDue s = some w :=
  inFlightFor_due due _

theorem programDue_of_due {s : State} {w : Writer} (due : dueFor s (.mappedProgram w)) : programDue s = some w :=
  inFlightFor_due due _

theorem storageDue_of_due {s : State} {w : Writer} (due : dueFor s (.storageProgram w)) :
    programDue s = none ∧ storageDue s = some w :=
  ⟨inFlightFor_due due _, inFlightFor_due due _⟩

theorem verifyDue_of_due {s : State} {w : Writer} (due : dueFor s (.verifyRead w)) : verifyDue s = some w :=
  inFlightFor_due due _

theorem jobReadDue_of_due {s : State} {line : Nat} (due : dueFor s (.jobRead line)) : jobReadDue s = some line :=
  inFlightFor_due due _

theorem patrolDue_of_due {s : State} {line : Nat} (due : dueFor s (.patrolRead line)) : patrolDue s = some line :=
  inFlightFor_due due _

theorem metaDue_of_due {s : State} {t : MetaLine} {askers : List MetaAsker} (due : dueFor s (.metaProgram t askers)) :
    metaDue s = some (t, askers) :=
  inFlightFor_due due _

theorem spareDue_of_due {s : State} (due : dueFor s .spareProgram) : spareDue s = true := by
  obtain ⟨-, o, flying, purpose⟩ := due
  simp [spareDue, flying, purpose]

/-! ### System reads (R18, R44, R126) -/

theorem corrected_congr {s t : State} (same : t.tables = s.tables) (line : Nat) (ecc : Ecc) :
    corrected t line ecc = corrected s line ecc := by
  simp only [corrected, lineClass, regionLookup, classEntry, same]

/-- A corrected status is a relocation need where it reaches the threshold (R44). -/
theorem correctedNeed_eq (line : Nat) (reason : Reason) (ecc : Ecc) (s : State) :
    correctedNeed line reason ecc s = if corrected s line ecc then need line reason s else s := by
  cases ecc <;> rfl

/-- A read whose data is readable, or not, and what it answers (R18). -/
def readResponse (ecc : Ecc) (data : LineData) (r : SystemRead) : Response :=
  if ecc = .uncorrectable then { code := .poison, data := List.replicate r.size 0#8 }
  else { code := .ok, data := slice (overlay r.covered r.snapshot data) r.offset r.size }

/-- The read has been answered and has ended (R18, R94). -/
def readEnded (ecc : Ecc) (data : LineData) (r : SystemRead) (s : State) : State :=
  endRead r (answerRead r (readResponse ecc data r) (portFreed s))

theorem readDone_eq {ecc : Ecc} {data : LineData} {r : SystemRead} {s : State} (due : dueFor s (.systemRead r.serial))
    (here : readOf s r.serial = some r) :
    readDone ecc data s =
      if ecc = .uncorrectable then offer r.line .read (readEnded ecc data r s)
      else readableReport r.line ecc (readEnded ecc data r s) := by
  rw [readDone, readDue_of_due due, Option.bind_some, here, readEnded]
  by_cases lost : ecc = .uncorrectable
  · simp only [lost, if_true, readResponse]
    rfl
  · simp only [lost, if_false, readResponse]
    rfl

/-- A read that is answered, unless SRST has discarded it, and ends (R6, R18, R92). -/
theorem endAnswered_effect (r : SystemRead) (x : Response) (s : State) :
    let u := endRead r (answerRead r x s)
    Keeps [.path, .link] s u
      ∧ u.path =
          { (if r.answered then restand r.port r.serial (.decided x) s.path else s.path) with
            reads := s.path.reads.filter fun x => x.serial != r.serial }
      ∧ u.link = { s.link with claims := u.link.claims }
      ∧ claimRecord u r.line = withoutClaimant (.read r.serial) (claimRecord s r.line)
      ∧ ∀ l, l ≠ r.line → claimRecord u l = claimRecord s l := by
  have link : (answerRead r x s).link = s.link := by simp
  have claims (l : Nat) : claimRecord (answerRead r x s) l = claimRecord s l := claimRecord_congr (by rw [link]) l
  refine ⟨by constructor <;> simp, ?_, ?_, ?_, fun l other => ?_⟩
  · unfold endRead answerRead
    cases r.answered
    · simp
    · simp [answer_eq]
  · rw [endRead, dropClaim_link]
    simp
  · rw [endRead, claimRecord_dropClaim]
    exact congrArg _ (claims r.line)
  · rw [endRead, claimRecord_dropClaim_at, if_neg (Ne.symm other)]
    exact claims l

theorem readEnded_effect (ecc : Ecc) (data : LineData) (r : SystemRead) (s : State) :
    Keeps [.path, .link] s (readEnded ecc data r s)
      ∧ (readEnded ecc data r s).path =
          { (if r.answered then restand r.port r.serial (.decided (readResponse ecc data r)) s.path else s.path) with
            reads := s.path.reads.filter fun x => x.serial != r.serial }
      ∧ (readEnded ecc data r s).link = { s.link with inFlight := none, claims := (readEnded ecc data r s).link.claims }
      ∧ claimRecord (readEnded ecc data r s) r.line = withoutClaimant (.read r.serial) (claimRecord s r.line)
      ∧ ∀ l, l ≠ r.line → claimRecord (readEnded ecc data r s) l = claimRecord s l := by
  obtain ⟨-, effect⟩ := endAnswered_effect r (readResponse ecc data r) (portFreed s)
  refine ⟨?_, effect⟩
  constructor <;> simp [readEnded, portFreed]

/-- Settles O34: the read's answer and end, and what the Media Health Unit makes of it. -/
theorem systemReadsAnswerByEccStatus : Obligations.SystemReadsAnswerByEccStatus := by
  refine ⟨corrected_iff, fun ecc data r s due here => ?_⟩
  intro response path
  obtain ⟨keeps, left, link, claim, claims⟩ := readEnded_effect ecc data r s
  refine ⟨readEnded ecc data r s, ?_, keeps, left, link, claim, claims⟩
  have candidate : isCandidate (readEnded ecc data r s) r.line = isCandidate s r.line := by
    rw [isCandidate, isCandidate, keeps.health (by decide)]
  refine onPart_leads (f := fun s => settle (readDone ecc data s)) due.1 (congrArg settle ?_)
  rw [readDone_eq due here, readableReport, correctedNeed_eq, corrected_congr (keeps.tables (by decide)), candidate]

end Sys2Proof.Machine
end

section
namespace Sys2Proof.Machine

/-! ### Offers and needs (R107, R123 to R125, R129, R130) -/

section
variable {line : Nat} {s : State}

/-- A line that is offered leaves the relocation queue first (R130). -/
theorem offer_eq (source : Source)
    (absent : (isCandidate s line || noDataPresent s line || jobInFlight s line) = false) :
    offer line source s =
      if 32 ≤ s.health.candidates.length then requestNoData line .candidateOverflow (removeQueuedJob line s)
      else
        writeIncident
          { kind := .candidateAdded, line := some line, port := none, detail := some (BitVec.ofNat 8 source.code)
            index := none }
          (post .candidateAdded
            { removeQueuedJob line s with
              health :=
                { (removeQueuedJob line s).health with
                  candidates := (removeQueuedJob line s).health.candidates ++
                    [{ line := line, source := source }] } }) := by
  simp only [Bool.or_eq_false_iff] at absent
  obtain ⟨⟨candidate, noData⟩, flying⟩ := absent
  rw [offer, if_neg (by simp [candidate]), if_neg (by simp [noData]), if_neg (by simp [flying])]

/-- A line with no reassign without data is given one, or is lost at a full queue (R107, R125). -/
theorem requestNoData_eq (origin : Origin) (absent : noDataPresent s line = false) :
    requestNoData line origin s =
      if 16 ≤ s.remap.noData.length then candidateLost line s
      else { s with remap := { s.remap with noData := s.remap.noData ++ [{ line := line, origin := origin }] } } := by
  rw [requestNoData, if_neg (by simp [absent])]

theorem need_eq (reason : Reason) (absent : (jobQueued s line || jobInFlight s line || isCandidate s line) = false) :
    need line reason s =
      if 16 ≤ s.health.queue.length then { s with events := s.events.post .relocationDropped }
      else { s with health := { s.health with queue := s.health.queue ++ [{ line := line, reason := reason }] } } := by
  obtain ⟨jobs, candidate⟩ := Bool.or_eq_false_iff.mp absent
  rw [need, if_neg (by simp [jobs]), if_neg (by simp [candidate])]
  rfl

theorem need_present (reason : Reason) (present :
    (jobQueued s line || jobInFlight s line || isCandidate s line) = true) :
    need line reason s = s := by
  rcases (Bool.or_eq_true _ _).mp present with jobs | candidate
  · rw [need, if_pos jobs]
  · rw [need, if_pos candidate]
    exact ite_self s

end

/-- Settles O35: what an offer and a need do, by what the line has and by the room. -/
theorem offersAndNeedsKeepOneEntryPerLine : Obligations.OffersAndNeedsKeepOneEntryPerLine := by
  refine ⟨fun line source s => ?_, fun line reason s => ?_⟩
  · intro u queue present
    have absentNoData (absent : present = false) : noDataPresent (removeQueuedJob line s) line = false :=
      (Bool.or_eq_false_iff.mp (Bool.or_eq_false_iff.mp absent).1).2
    refine ⟨offer_present source, fun absent room => ?_, fun absent full room => ?_, fun absent full lost => ?_⟩
    · have added : u = _ := offer_eq source absent
      rw [if_neg (Nat.not_le.mpr room)] at added
      refine ⟨?_, offer_health source absent room, ?_⟩
      · rw [added]
        constructor <;> simp
      · rw [added, writeIncident_post_eq (s := s) _ _ (by simp)]
        cases source <;> rfl
    · rw [show u = _ from offer_eq source absent, if_pos full, requestNoData_eq _ (absentNoData absent),
        if_neg (by simpa using room)]
      rfl
    · have given : u = candidateLost line (removeQueuedJob line s) := by
        rw [show u = _ from offer_eq source absent, if_pos full, requestNoData_eq _ (absentNoData absent),
          if_pos (by simpa using lost)]
      rw [given, candidateLost, writeIncident_post_eq (s := s) _ _ (by simp)]
      refine ⟨?_, rfl, rfl⟩
      constructor <;> simp
  · intro present
    refine ⟨need_present reason, fun absent room => ?_, fun absent full => ?_⟩
    · rw [need_eq reason absent, if_neg (Nat.not_le.mpr room)]
    · rw [need_eq reason absent, if_pos full]

/-! ### Patrol reads and source reads (R133, R134, R140) -/

/-- The patrol read is no longer outstanding, and nothing has been made of it yet (R140). -/
def patrolReadEnded (s : State) : State :=
  { portFreed s with health := { s.health with patrol := { s.health.patrol with outstanding := none } } }

theorem patrolDone_eq {ecc : Ecc} {line : Nat} {s : State} (due : dueFor s (.patrolRead line)) :
    patrolDone ecc s =
      if jobInFlight s line = true ∨ dataState s line = .poisoned ∨ isCandidate s line = true then patrolReadEnded s
      else if ecc = .uncorrectable then offer line .patrol (patrolReadEnded s)
      else if corrected s line ecc then need line .patrolCorrected (patrolReadEnded s)
      else patrolReadEnded s := by
  have passed : (jobInFlight s line || decide (dataState s line = .poisoned) || isCandidate s line) = true
      ↔ jobInFlight s line = true ∨ dataState s line = .poisoned ∨ isCandidate s line = true := by simp [or_assoc]
  rw [patrolDone, patrolDue_of_due due]
  change patrolReport line ecc (patrolReadEnded s) = _
  rw [patrolReport, correctedNeed_eq, corrected_congr (t := patrolReadEnded s) (s := s) rfl]
  exact if_congr passed rfl rfl

theorem jobOf_line {s : State} {line : Nat} {j : Job} (here : jobOf s line = some j) : j.line = line := by
  simpa using List.find?_some here

theorem sourceDone_eq {ecc : Ecc} {data : LineData} {line : Nat} {j : Job} {s : State} (due : dueFor s (.jobRead line))
    (here : jobOf s line = some j) :
    sourceDone ecc data s =
      if ecc = .uncorrectable then offer line .relocation (endJob line (portFreed s))
      else
        joinWork (.reassign (.job line) line data j.known (jobOrigin j.reason))
          (setJob line (fun j => { j with staged := some data }) (portFreed s)) := by
  have same := jobOf_line here
  rw [sourceDone, jobReadDue_of_due due, Option.bind_some, here]
  subst same
  rfl

/-- A job that ends leaves the jobs in flight, with its claim (R134). -/
theorem endJob_effect (line : Nat) (s : State) :
    Keeps [.health, .link] s (endJob line s)
      ∧ (endJob line s).health = { s.health with jobs := s.health.jobs.filter fun x => x.line != line }
      ∧ (endJob line s).link = { s.link with claims := (endJob line s).link.claims }
      ∧ claimRecord (endJob line s) line = withoutClaimant (.job line) (claimRecord s line)
      ∧ ∀ l, l ≠ line → claimRecord (endJob line s) l = claimRecord s l := by
  refine ⟨by constructor <;> simp [endJob], by simp [endJob], rfl, ?_, fun l other => ?_⟩
  · rw [endJob, claimRecord_dropClaim]
    rfl
  · rw [endJob, claimRecord_dropClaim_at, if_neg (Ne.symm other)]
    rfl

/-- Settles O36: what a patrol read and a source read lead to. -/
theorem patrolAndSourceReadsReport : Obligations.PatrolAndSourceReadsReport := by
  refine fun s => ⟨corrected_iff s, fun ecc line due => onPart_leads due.1 (patrolDone_eq due),
    fun ecc data line j due here => ⟨fun readable => ?_, fun lost => ?_⟩⟩
  · refine onPart_leads due.1 ((sourceDone_eq due here).trans ?_)
    have origin : jobOrigin j.reason = if j.reason = .retireCommand then .retireCommand else .relocated := by
      cases j.reason <;> rfl
    rw [if_neg readable, origin]
    rfl
  · obtain ⟨keeps, health, link, claim, claims⟩ := endJob_effect line (portFreed s)
    refine ⟨endJob line (portFreed s), onPart_leads due.1 ((sourceDone_eq due here).trans (if_pos lost)), ?_, health,
      link,
      claim, claims⟩
    constructor <;> simp [portFreed]

/-! ### Courses (R61 to R65, R73, R106, R116, R127) -/

theorem recordOrEnd_eq (w : Writer) (c : Course) (s : State) :
    recordOrEnd w c s =
      if c.view = .intact then endCourse w .programmed s else joinWork (.recording w c.line c.known) s := by
  unfold recordOrEnd
  cases c.view <;> simp

theorem programmed_ok (w : Writer) (c : Course) (s : State) :
    programmed w c true s =
      if isCandidate s c.line then placeCourseOp (.verifyRead w) c.mapped .read false s else recordOrEnd w c s := rfl

/-- Settles O37: each completion of a course, on the course as it stands. -/
theorem coursesAdvanceByCompletions : Obligations.CoursesAdvanceByCompletions := by
  intro w c s here f retired asks ends
  refine ⟨fun ecc data due => ⟨fun readable => ?_, fun lost => ?_⟩,
    fun due => ⟨?_, fun candidate => ?_, fun plain => ?_⟩, fun ecc due => ?_⟩
  · refine onPart_leads due.1 ?_
    rw [mergeDone, mergeDue_of_due due]
    simp only [here]
    rw [if_neg readable]
    rfl
  · refine onPart_leads due.1 ?_
    rw [mergeDone, mergeDue_of_due due]
    simp only [here]
    rw [if_pos lost]
    rfl
  · refine onPart_leads due.1 ?_
    rw [programDone, programDue_of_due due]
    simp only [here]
    rfl
  · refine onPart_leads due.1 ?_
    rw [programDone, programDue_of_due due]
    simp only [here]
    exact if_pos candidate
  · refine onPart_leads due.1 ?_
    rw [programDone, programDue_of_due due]
    simp only [here]
    have unlisted : ¬isCandidate f c.line = true := Bool.eq_false_iff.mp plain
    rw [show freePort s = f from rfl, programmed_ok, if_neg unlisted, recordOrEnd_eq]
  · refine onPart_leads due.1 ?_
    rw [verifyDone, verifyDue_of_due due]
    simp only [here]
    by_cases clean : ecc = .clean
    · rw [if_pos clean, if_pos clean, recordOrEnd_eq]
      rfl
    · rw [if_neg clean, if_neg clean]
      rfl

end Sys2Proof.Machine
end

section
namespace Sys2Proof.Machine

/-! ### The judgement of a reassign (R103, R104, R108, R109, R112, R113) -/

theorem nextGeneration_eq (s : State) (line : Nat) :
    (∀ e, remapEntry s line = some e → nextGeneration s line = e.generation + 1#8)
      ∧ (remapEntry s line = none → nextGeneration s line = 0#8) :=
  ⟨fun e entry => by rw [nextGeneration, entry], fun none => by rw [nextGeneration, none]⟩

/-- A slot is the lowest FREE one (R103). -/
def LowestFree (s : State) (slot : Nat) : Prop :=
  slot < 4096 ∧ poolState s slot = .free ∧ ∀ n, n < slot → poolState s n ≠ .free

theorem lowestFree_of {s : State} {slot : Nat} (lowest : LowestFree s slot) : lowestFree s = some slot := by
  obtain ⟨within, free, below⟩ := lowest
  exact lowestFreeFrom_found s slot free 4096 0 (Nat.zero_le _) (by omega) fun n _ h => below n h

theorem lowestFree_none {s : State} (used : ∀ slot, slot < 4096 → poolState s slot ≠ .free) : lowestFree s = none :=
  lowestFreeFrom_none s 4096 0 fun n _ h => used n (by omega)

section
variable {s : State}

theorem judgeReassign_fault (fault : s.remap.fault = true) : judgeReassign s = conclude .metadata s := if_pos fault

theorem judgeReassign_full (sound : s.remap.fault = false) (used : ∀ slot, slot < 4096 → poolState s slot ≠ .free) :
    judgeReassign s = conclude .noSpare s := by
  rw [judgeReassign, if_neg (by simp [sound]), lowestFree_none used]

/-- A reassign with data programs the spare of the lowest FREE slot (R109). -/
theorem judgeReassign_reassign {slot line : Nat} {who : Requester} {data : LineData} {known : Mask} {origin : Origin}
    {rest : List Request} (sound : s.remap.fault = false) (lowest : LowestFree s slot)
    (head : s.remap.workList = .reassign who line data known origin :: rest) :
    judgeReassign s =
      placeOp
        { purpose := .spareProgram, arrayLine := s.fence.uNative + slot, action := .program (.bytes data)
          first := false, issued := false }
        { s with remap := { s.remap with serving := some (.spare slot) } } := by
  change _ = placeCourseOp .spareProgram (spareLine s slot) (.program (.bytes data)) false (setServing (.spare slot) s)
  rw [judgeReassign, if_neg (by simp [sound]), lowestFree_of lowest]
  simp only [head]

/-- The head of the work list has its IN_USE record, and its image program is asked for (R105, R110). -/
theorem placeInUse_eq {slot line : Nat} {r : Request} {rest : List Request} {state : DataState} {origin : Origin}
    (head : s.remap.workList = r :: rest) (record : r.record = some (line, state, origin)) :
    placeInUse slot s =
      requestMeta (.image (slot / 4)) .remap
        { s with
          remap :=
            { s.remap with
              serving := some (.inUse slot)
              records := sparseSet s.remap.records slot (.inUse line state origin (nextGeneration s line)) } } := by
  have found : s.remap.workList.head?.bind Request.record = some (line, state, origin) := by rw [head]; exact record
  rw [placeInUse, found]
  rfl

/-- A reassign with no data goes to its IN_USE record at once (R112). -/
theorem judgeReassign_noData {slot line : Nat} {origin : Origin} {rest : List Request} (sound : s.remap.fault = false)
    (lowest : LowestFree s slot) (head : s.remap.workList = .noData line origin :: rest) :
    judgeReassign s = placeInUse slot s := by
  rw [judgeReassign, if_neg (by simp [sound]), lowestFree_of lowest]
  simp only [head]

/-- The head of the work list is judged when nothing is in service and it asks for a reassign (R106, R108). -/
theorem serveReassign_judges {r : Request} {rest : List Request} (idle : s.remap.serving = none)
    (head : s.remap.workList = r :: rest)
    (asks : (∃ who line data known origin, r = .reassign who line data known origin) ∨ ∃ line origin,
      r = .noData line origin) :
    serveReassign s = judgeReassign s := by
  have next : unservedHead s = some r := by simp [unservedHead, idle, head]
  rw [serveReassign, next]
  rcases asks with ⟨who, line, data, known, origin, rfl⟩ | ⟨line, origin, rfl⟩ <;> rfl

theorem serveReassign_idle
    (idle : s.remap.serving.isSome = true ∨ s.remap.workList = []
      ∨ (∃ w line data mask rest, s.remap.workList = .storage w line data mask :: rest)
      ∨ ∃ w line known rest, s.remap.workList = .recording w line known :: rest) :
    serveReassign s = s := by
  unfold serveReassign unservedHead
  rcases idle with busy | none | ⟨w, line, data, mask, rest, head⟩ | ⟨w, line, known, rest, head⟩
  · simp [busy]
  · simp [none]
  · cases s.remap.serving <;> simp [head]
  · cases s.remap.serving <;> simp [head]

end

/-- The thresholds of the free count, at an event that took it from `before` to `after` (R104). -/
def crossed (before after : Nat) (e : Events) : Events :=
  if before = 65 ∧ after = 64 then e.post .sparesLow
  else if before = 1 ∧ after = 0 then e.post .sparesExhausted
  else e

/-- A slot that goes DEAD, with its record and the thresholds (R103, R104). -/
theorem killSlot_eq (slot : Nat) (s : State) :
    killSlot slot s =
      { s with
        remap :=
          { s.remap with dead := insertNat s.remap.dead slot, records := sparseSet s.remap.records slot .dead }
        events := crossed (freeCount s) (freeCount (killSlot slot s)) s.events } := by
  have count : freeCount (setRecord slot .dead { s with remap := { s.remap with dead := insertNat s.remap.dead slot } })
      = freeCount (killSlot slot s) := freeCount_congr (by simp [killSlot]) (by simp [killSlot])
  conv_lhs => rw [killSlot, postThresholds_eq, count]
  rfl

/-- The spare program of the trial slot completes (R109, R113). -/
theorem spareProgramDone_eq {slot : Nat} {s : State} (ok : Bool) (due : dueFor s .spareProgram)
    (serving : s.remap.serving = some (.spare slot)) : spareProgramDone ok s = spareDone slot ok (portFreed s) := by
  rw [spareProgramDone, spareDue_of_due due, serving]
  rfl

/-- Settles O38: the judgement, and the spare program's two outcomes. -/
theorem reassignsTakeTheLowestFreeSlot : Obligations.ReassignsTakeTheLowestFreeSlot := by
  intro s out image recorded
  have serves : exec .reassignServe s = .next (settle (serveReassign s)) :=
    onPart_out out fun s => settle (serveReassign s)
  refine ⟨nextGeneration_eq s, fun slot => ⟨poolState_dead s slot, poolState_free s slot⟩,
    fun idle => by rw [serves, serveReassign_idle idle], fun r rest idle head asks => ?_,
    fun slot who line data known origin rest due serving head => ?_⟩
  · rw [serveReassign_judges idle head asks] at serves
    refine ⟨fun fault => by rw [serves, judgeReassign_fault fault],
      fun sound used => by rw [serves, judgeReassign_full sound used], fun slot sound within free below => ?_⟩
    have lowest : LowestFree s slot := ⟨within, free, below⟩
    refine ⟨?_, ?_⟩
    · rintro who line data known origin rfl
      rw [serves, judgeReassign_reassign sound lowest head]
    · rintro line origin rfl
      rw [serves, judgeReassign_noData sound lowest head, placeInUse_eq head rfl]
  · intro f dead
    have completes (ok : Bool) : exec (.spareProgramComplete ok) s = .next (spareDone slot ok f) :=
      onPart_leads due.1 (spareProgramDone_eq ok due serving)
    have killed : dead = _ := killSlot_eq slot f
    have deadRemap : dead.remap = { s.remap with
        dead := insertNat s.remap.dead slot, records := sparseSet s.remap.records slot .dead } :=
          congrArg State.remap killed
    have faultDead : dead.remap.fault = s.remap.fault := by rw [deadRemap]
    refine ⟨fun fault => ⟨?_, ?_⟩, fun sound => ⟨?_, ?_⟩, ?_, deadRemap, rfl, ?_⟩
    · rw [completes, spareDone, if_pos rfl]
      exact congrArg _ (if_pos fault)
    · rw [completes, spareDone, if_neg (by decide)]
      exact congrArg _ (if_pos (faultDead.trans fault))
    · rw [completes, spareDone, if_pos rfl]
      refine congrArg _ ((if_neg ?_).trans (placeInUse_eq (s := f) head rfl))
      exact Bool.eq_false_iff.mp sound
    · rw [completes, spareDone, if_neg (by decide)]
      refine congrArg _ (if_neg ?_)
      exact Bool.eq_false_iff.mp (faultDead.trans sound)
    · rw [killed]
      constructor <;> simp [f, portFreed]
    · exact congrArg State.events killed

end Sys2Proof.Machine
end

section
namespace Sys2Proof.Machine

/-! ### An entry goes live (R102, R104, R110, R111, R113, R130) -/

theorem writeIncident_events_congr (i : Incident) {s t : State} (same : t.events = s.events) :
    (writeIncident i t).events = (writeIncident i s).events := by
  unfold writeIncident
  rw [same]
  split <;> simp [same]

theorem postThresholds_crossed (before : Nat) (s : State) :
    postThresholds before s = { s with events := crossed before (freeCount s) s.events } := postThresholds_eq before s

/-- The Remap Unit as the entry of a line goes live: the table, and the former slot DEAD in pool and record (R110,
R113). -/
def liveRemap (slot line : Nat) (data : DataState) (origin : Origin) (s : State) : RemapUnit :=
  let table :=
    sparseSet s.remap.table line { slot := slot, data := data, origin := origin, generation := nextGeneration s line }
  match remapEntry s line with
  | none => { s.remap with table := table }
  | some old =>
    { s.remap with
      table := table, dead := insertNat s.remap.dead old.slot
      records := sparseSet s.remap.records old.slot .dead }

/-- The incident of a line that has been remapped (R172). -/
def remappedIncident (slot line : Nat) (origin : Origin) : Incident :=
  { kind := .remapped, line := some line, port := none, detail := some (BitVec.ofNat 8 (originCode origin))
    index := some slot }

/-- The state in which an entry has gone live, before its former slot's record is programmed (R110). -/
def wentLive (slot line : Nat) (data : DataState) (origin : Origin) (s : State) : State :=
  removeQueuedJob line
    (writeIncident (remappedIncident slot line origin)
      (post .remapped (postThresholds (freeCount s) { s with remap := liveRemap slot line data origin s })))

section
variable {slot line : Nat} {r : Request} {rest : List Request} {state : DataState} {origin : Origin} {s : State}

theorem goLive_new (head : s.remap.workList = r :: rest) (record : r.record = some (line, state, origin))
    (new : remapEntry s line = none) : goLive slot s = conclude .succeeded (wentLive slot line state origin s) := by
  have found : s.remap.workList.head?.bind Request.record = some (line, state, origin) := by rw [head]; exact record
  rw [goLive, found]
  simp only [new, wentLive, liveRemap]
  rfl

theorem wentLive_effect (slot line : Nat) (state : DataState) (origin : Origin) (s : State) :
    Keeps [.remap, .health, .events] s (wentLive slot line state origin s)
      ∧ (wentLive slot line state origin s).health =
          { s.health with queue := s.health.queue.filter fun j => j.line != line }
      ∧ (wentLive slot line state origin s).remap = liveRemap slot line state origin s
      ∧ (wentLive slot line state origin s).events =
          (writeIncident (remappedIncident slot line origin)
            { s with
              events :=
                (crossed (freeCount s) (freeCount (wentLive slot line state origin s)) s.events).post
                  .remapped }).events := by
  have remap : (wentLive slot line state origin s).remap = liveRemap slot line state origin s := by simp [wentLive]
  refine ⟨by constructor <;> simp [wentLive], by simp [wentLive], remap, ?_⟩
  have count : freeCount { s with remap := liveRemap slot line state origin s }
      = freeCount (wentLive slot line state origin s) := freeCount_congr (by rw [remap]) (by rw [remap])
  have posted := writeIncident_events_congr (remappedIncident slot line origin)
    (s := { s with
      events := (crossed (freeCount s) (freeCount (wentLive slot line state origin s)) s.events).post .remapped })
    (t := post .remapped (postThresholds (freeCount s) { s with remap := liveRemap slot line state origin s }))
    (by rw [post_events, postThresholds_crossed, count])
  rw [← posted]
  simp [wentLive]

theorem goLive_former {old : RemapEntry} (head : s.remap.workList = r :: rest)
    (record : r.record = some (line, state, origin)) (former : remapEntry s line = some old) :
    goLive slot s =
      if s.remap.fault then conclude .succeeded (wentLive slot line state origin s)
      else
        requestMeta (.image (old.slot / 4)) .remap
          { wentLive slot line state origin s with
            remap := { (wentLive slot line state origin s).remap with serving := some (.oldSlot old.slot) } } := by
  have found : s.remap.workList.head?.bind Request.record = some (line, state, origin) := by rw [head]; exact record
  have fault : (wentLive slot line state origin s).remap.fault = s.remap.fault := by
    obtain ⟨-, -, remap, -⟩ := wentLive_effect slot line state origin s
    rw [remap, liveRemap]
    simp only [former]
  rw [← fault, goLive, found]
  simp only [former, wentLive, liveRemap]
  rfl

end

/-! ### Completions of metadata programs (R119, R157, R167) -/

/-- Out of REPAIRING the repair does not go on (R167). -/
theorem advanceRepair_other {s : State} (other : s.metaCtl.phase ≠ .repairing) : advanceRepair s = s := if_neg other

/-- The fault, set where no metadata program can be withdrawn and no repair runs (R119). -/
theorem setFault_plain {s : State} (sound : s.remap.fault = false)
    (none : s.link.work.all (fun o => !o.withdrawable) = true) (other : s.metaCtl.phase ≠ .repairing) :
    setFault s = post .metadataFault { s with remap := { s.remap with fault := true } } := by
  have gone : s.link.work.filter (·.withdrawable) = [] := by
    simpa [List.filter_eq_nil_iff] using none
  have kept : s.link.work.filter (fun o => !o.withdrawable) = s.link.work := by
    simpa [List.filter_eq_self] using none
  simp [setFault, sound, gone, kept, other, removeWork, post]

/-- The program of an image line completes for the Remap Unit alone (R110, R157). -/
theorem imageProgramDone {k : Nat} {s : State} (due : dueFor s (.metaProgram (.image k) [.remap])) (ok : Bool) :
    metaDone namesImage ok s = metaProgramDone (.image k) [.remap] ok (portFreed s) := by
  rw [metaDone, metaDue_of_due due]
  rfl

theorem imageProgramDone_ok {k : Nat} {s : State} (due : dueFor s (.metaProgram (.image k) [.remap]))
    (other : s.metaCtl.phase ≠ .repairing) :
    exec (.imageProgramComplete true) s = .next (deliver true .remap (unlistRepair (.image k) (portFreed s))) := by
  refine onPart_leads due.1 ((imageProgramDone due true).trans ?_)
  exact advanceRepair_other (by simpa [portFreed] using other)

theorem imageProgramDone_failed {k : Nat} {s : State} (due : dueFor s (.metaProgram (.image k) [.remap]))
    (other : s.metaCtl.phase ≠ .repairing) (sound : s.remap.fault = false)
    (none : s.link.work.all (fun o => !o.withdrawable) = true) :
    exec (.imageProgramComplete false) s =
      .next
        (deliver false .remap (post .metadataFault { portFreed s with remap := { s.remap with fault := true } })) := by
  refine onPart_leads due.1 ((imageProgramDone due false).trans ?_)
  have fault := setFault_plain (s := portFreed s) sound none other
  rw [metaProgramDone]
  simp only [Bool.false_eq_true, if_false, fault]
  exact advanceRepair_other (by simpa [portFreed] using other)

theorem deliver_inUse {slot : Nat} {s : State} (serving : s.remap.serving = some (.inUse slot)) (l : MetaLine) :
    deliver true .remap s = goLive slot s ∧ deliver false .remap s = conclude .metadata (killSlot slot s)
      ∧ withdrawn l .remap s =
          conclude .metadata { s with remap := { s.remap with records := sparseDel s.remap.records slot } } := by
  refine ⟨?_, ?_, ?_⟩
  · rw [deliver, imageDone, serving]
    rfl
  · rw [deliver, imageDone, serving]
    rfl
  · rw [withdrawn, imageWithdrawn, serving]
    rfl

theorem deliver_deadRecord {slot : Nat} {s : State} (serving : s.remap.serving = some (.deadRecord slot))
    (l : MetaLine) :
    deliver true .remap s = judgeReassign s ∧ deliver false .remap s = conclude .metadata s
      ∧ withdrawn l .remap s = conclude .metadata s := by
  refine ⟨?_, ?_, ?_⟩
  · rw [deliver, imageDone, serving]
    rfl
  · rw [deliver, imageDone, serving]
    rfl
  · rw [withdrawn, imageWithdrawn, serving]

theorem deliver_oldSlot {slot : Nat} {s : State} (serving : s.remap.serving = some (.oldSlot slot)) (ok : Bool)
    (l : MetaLine) : deliver ok .remap s = conclude .succeeded s ∧ withdrawn l .remap s = conclude .succeeded s := by
  refine ⟨?_, ?_⟩
  · rw [deliver, imageDone, serving]
  · rw [withdrawn, imageWithdrawn, serving]

/-- Settles O39: the four outcomes of an image program that the Remap Unit waits for. -/
theorem entriesGoLiveWithTheirRecord : Obligations.EntriesGoLiveWithTheirRecord := by
  unfold Obligations.EntriesGoLiveWithTheirRecord
  intro crossed lives
  have live (line slot : Nat) (state : DataState) (origin : Origin) (s : State) (r : Request) (rest : List Request)
      (head : s.remap.workList = r :: rest) (record : r.record = some (line, state, origin)) :
      lives line slot state origin s (goLive slot s) := by
    obtain ⟨keeps, health, remap, events⟩ := wentLive_effect slot line state origin s
    refine ⟨fun new => ⟨_, goLive_new head record new, ⟨keeps, health, events⟩, ?_⟩,
      fun old former => ⟨_, ⟨keeps, health, events⟩, ?_, goLive_former head record former⟩⟩
    · rw [remap, liveRemap, new]
    · rw [remap, liveRemap, former]
  refine ⟨nextGeneration_eq, rfl, fun s k slot r rest line state origin due other serving head record =>
    ⟨?_, fun sound none => ?_⟩,
    fun s l slot => ⟨fun r rest line state origin serving head record => ?_, fun serving => ?_, fun dead serving => ?_,
      fun old ok serving => deliver_oldSlot serving ok l⟩⟩
  · refine ⟨_, imageProgramDone_ok due other, ?_⟩
    rw [(deliver_inUse (s := unlistRepair (.image k) (portFreed s)) serving (.image k)).1]
    exact live line slot state origin (unlistRepair (.image k) (portFreed s)) r rest head record
  · let f : State := post .metadataFault { portFreed s with remap := { s.remap with fault := true } }
    obtain ⟨-, failed, -⟩ := deliver_inUse (s := f) serving (.image k)
    refine ⟨killSlot slot f, (imageProgramDone_failed due other sound none).trans (congrArg _ failed), ?_, ?_, ?_⟩
    · constructor <;> simp [f, portFreed]
    · simp [f]
    · exact congrArg State.remap (killSlot_eq slot f)
  · rw [(deliver_inUse serving l).1]
    exact live line slot state origin s r rest head record
  · obtain ⟨-, failed, gone⟩ := deliver_inUse serving l
    exact ⟨failed, gone⟩
  · obtain ⟨judged, failed, gone⟩ := deliver_deadRecord serving l
    refine ⟨failed, gone, fun fault => ?_, fun sound used => ?_,
      fun who line data known origin rest sound head within free below => ?_⟩
    · rw [judged, judgeReassign_fault fault]
    · rw [judged, judgeReassign_full sound used]
    · rw [judged, judgeReassign_reassign sound ⟨within, free, below⟩ head]

end Sys2Proof.Machine
end

section
namespace Sys2Proof.Machine

/-! ### Outcomes (R63, R64, R66, R74, R106, R107, R125, R134) -/

/-- The request at the head has left the work list, and nothing of it has ended yet (R106). -/
def headLeft (rest : List Request) (s : State) : State :=
  { s with remap := { s.remap with workList := rest, serving := none } }

/-- A reassign with no data releases its claim (R107). -/
theorem dropNoData_effect (line : Nat) (rest : List Request) (s : State) :
    let u := dropClaim line .noData (headLeft rest s)
    Keeps [.remap, .link] s u ∧ u.remap = (headLeft rest s).remap
      ∧ u.link = { s.link with claims := u.link.claims }
      ∧ claimRecord u line = withoutClaimant .noData (claimRecord s line)
      ∧ ∀ l, l ≠ line → claimRecord u l = claimRecord s l := by
  refine ⟨by constructor <;> simp [headLeft], by simp, rfl, ?_, fun l other => ?_⟩
  · rw [claimRecord_dropClaim]
    rfl
  · rw [claimRecord_dropClaim_at, if_neg (Ne.symm other)]
    rfl

theorem candidateLost_eq (line : Nat) {s t : State} (same : t.events = s.events) :
    candidateLost line t =
      { t with
        events :=
          (writeIncident { kind := .candidateLost, line := some line, port := none, detail := none, index := none }
            (post .candidateLost s)).events } := writeIncident_post_eq _ _ same

/-- Settles O40: the outcome of the request at the head, by its requester. -/
theorem outcomesReachTheirRequesters : Obligations.OutcomesReachTheirRequesters := by
  intro v r rest s head f ending
  have ends : v.ending = ending := by cases v <;> rfl
  refine ⟨?_, ?_, ?_, ?_, ?_⟩
  · rintro w line data known origin rfl
    rw [conclude, head, ← ends]
  · rintro j line data known origin rfl
    have concluded : conclude v s = endJob j f := by rw [conclude, head]
    obtain ⟨keeps, health, link, claim, claims⟩ := endJob_effect j f
    rw [concluded]
    refine ⟨?_, keeps.remap (by decide), health, link, claim, claims⟩
    constructor <;> simp [f]
  · rintro w line data mask rfl
    rw [conclude, head, ← ends]
  · rintro w line known rfl
    rw [conclude, head]
  · rintro line origin rfl
    have concluded : conclude v s
        = if v = .succeeded then dropClaim line .noData f else candidateLost line (dropClaim line .noData f) := by
      rw [conclude, head]
    obtain ⟨keeps, remap, link, claim, claims⟩ := dropNoData_effect line rest s
    have lost := candidateLost_eq line (t := dropClaim line .noData f) (s := s) (by simp [f])
    by_cases good : v = .succeeded
    · rw [concluded, if_pos good]
      refine ⟨?_, remap, link, claim, claims, fun _ => keeps.events (by decide), fun bad => absurd good bad⟩
      constructor <;> simp [f]
    · rw [concluded, if_neg good, lost]
      refine ⟨?_, remap, link, claim, claims, fun h => absurd h good, fun _ => rfl⟩
      constructor <;> simp [f]

/-! ### Storages and recordings (R105, R113, R115, R117) -/

/-- The entry of a line takes a data state; its origin and generation stay (R115). -/
def statePlaced (line : Nat) (e : RemapEntry) (d : DataState) (s : State) : State :=
  { s with remap := { s.remap with table := sparseSet s.remap.table line { e with data := d } } }

/-- The record of the line's slot takes a data state (R105, R115). -/
def stateNoted (line : Nat) (e : RemapEntry) (d : DataState) (s : State) : State :=
  { s with remap := { s.remap with records := sparseSet s.remap.records e.slot (.inUse line d e.origin e.generation) } }

theorem setDataState_eq {line : Nat} {e : RemapEntry} {s : State} (entry : remapEntry s line = some e) (d : DataState) :
    setDataState line d s = statePlaced line e d s := by
  rw [setDataState, entry]
  rfl

/-- A recording begins: in the table and the record alone under the fault, and else by the image program (R115). -/
theorem beginRecording_eq {line : Nat} {e : RemapEntry} {s : State} (entry : remapEntry s line = some e)
    (known : Mask) :
    beginRecording line known s =
      if s.remap.fault then
        conclude .succeeded
          (statePlaced line e (recordedState s line known) (stateNoted line e (recordedState s line known) s))
      else
        requestMeta (.image (e.slot / 4)) .remap
          { stateNoted line e (recordedState s line known) s with
            remap :=
              { (stateNoted line e (recordedState s line known) s).remap with
                serving := some (.recording (recordedState s line known)) } } := by
  have same : remapEntry (stateNoted line e (recordedState s line known) s) line = some e := entry
  rw [beginRecording, entry, ← setDataState_eq same]
  rfl

/-- A storage goes on as a reassign of origin MERGE_FAIL (R117). -/
theorem storageToReassign_eq {w : Writer} {line : Nat} {data : LineData} {mask : Mask} {rest : List Request} {s : State}
    (head : s.remap.workList = .storage w line data mask :: rest) :
    storageToReassign s =
      judgeReassign
        { s with
          remap :=
            { s.remap with
              workList := .reassign (.writer w) line data mask .mergeFail :: rest, serving := none } } := by
  rw [storageToReassign, head]

/-- A storage programs the spare of a POISONED line, unless the fault is set (R117). -/
theorem serveStorage_eq {w : Writer} {line : Nat} {data : LineData} {mask : Mask} {rest : List Request} {s : State}
    (head : s.remap.workList = .storage w line data mask :: rest) :
    serveStorage s =
      if dataState s line = .poisoned then
        if s.remap.fault then conclude .metadata s
        else placeCourseOp (.storageProgram w) (mappedLine s line) (.program (.bytes data)) true (setServing .storage s)
      else storageToReassign s := by
  unfold serveStorage
  split
  next here =>
    rw [head] at here
    cases here
    rfl
  next other => exact (other _ _ _ _ _ head).elim

/-- A recording that the Remap Unit waits for is done, however its image program ended (R113, R115). -/
theorem deliver_recording {d : DataState} {s : State} (serving : s.remap.serving = some (.recording d)) (ok : Bool)
    (l : MetaLine) :
    deliver ok .remap s = conclude .succeeded (setDataState (headLine s) d s)
      ∧ withdrawn l .remap s = conclude .succeeded (setDataState (headLine s) d s) := by
  refine ⟨?_, ?_⟩
  · rw [deliver, imageDone, serving]
  · rw [withdrawn, imageWithdrawn, serving]

/-- Settles O41: storages and recordings, from their service to their completion. -/
theorem storageAndRecordingKeepTheKnownBytes : Obligations.StorageAndRecordingKeepTheKnownBytes := by
  intro s rest out state placed noted begun
  have begins (line : Nat) (e : RemapEntry) (known : Mask) (v : State) (remap : v.remap = s.remap)
      (entry : remapEntry s line = some e) : beginRecording line known v = begun line e known v := by
    have here : remapEntry v line = some e := by rw [remapEntry, remap]; exact entry
    have formed : recordedState v line known = state line known := by
      rw [recordedState, dataState_congr remap]
      rfl
    rw [beginRecording_eq here, formed, remap]
    rfl
  refine ⟨fun w line data mask idle head => ?_, fun w line data mask e due head entry => ?_,
    fun w line known e idle head entry => ?_, fun w line known e k d due other serving head entry => ?_,
    fun w line e d ok l serving head entry => ?_⟩
  · have next : unservedHead s = some (.storage w line data mask) := by simp [unservedHead, idle, head]
    have serves : exec .mergeFailStorageServe s = .next (serveStorage s) :=
      onPart_leads out (by rw [serveMergeFail, next])
    refine ⟨fun poisoned fault => ?_, fun poisoned sound => ?_, fun readable => ?_⟩
    · rw [serves, serveStorage_eq head, if_pos poisoned, if_pos fault]
    · rw [serves, serveStorage_eq head, if_pos poisoned, if_neg (by simp [sound])]
      rfl
    · rw [serves, serveStorage_eq head, if_neg readable, storageToReassign_eq head]
      simp only [idle]
  · have completes (ok : Bool) : exec (.drainProgramComplete ok) s = .next (storageDone ok (portFreed s)) := by
      obtain ⟨none, due'⟩ := storageDue_of_due due
      refine onPart_leads due.1 ?_
      rw [programDone, none, due']
      rfl
    have here : (portFreed s).remap.workList = .storage w line data mask :: rest := head
    refine ⟨?_, ?_⟩
    · rw [completes, storageDone, here]
      exact congrArg _ (begins line e mask (portFreed s) rfl entry)
    · rw [completes, storageDone, here]
      exact congrArg _ (storageToReassign_eq here)
  · have next : unservedHead s = some (.recording w line known) := by simp [unservedHead, idle, head]
    refine onPart_leads out ?_
    rw [serveRecording, next]
    exact begins line e known s rfl entry
  · let f := unlistRepair (.image k) (portFreed s)
    obtain ⟨done, -⟩ := deliver_recording (s := f) serving true (.image k)
    have line' : headLine f = line := by
      have here : f.remap.workList = .recording w line known :: rest := head
      rw [headLine, here]
    rw [imageProgramDone_ok due other, done, line', setDataState_eq (s := f) entry]
    rfl
  · have line' : headLine s = line := by
      rcases head with ⟨known, head⟩ | ⟨data, mask, head⟩ <;> rw [headLine, head]
    have done := deliver_recording serving ok l
    rw [line', setDataState_eq entry] at done
    exact done

end Sys2Proof.Machine
end

section
namespace Sys2Proof.Machine

/-! ### Grants (R16, R17, R73, R92 to R94, R107, R132) -/

/-- The holders of a line, kind by kind (R92 to R94). -/
theorem holders_spec (h : Holders) (o : Claimant) :
    (h.admits .shared = true ↔ ∃ os, h = .shared os) ∧ (h.admits .exclusive = true ↔ h = .shared [])
      ∧ (∀ os, (Holders.shared os).add .shared o = .shared (os ++ [o])) ∧ h.add .exclusive o = .exclusive o
      ∧ (∀ os, (Holders.shared os).drop o = .shared (os.filter fun x => decide (x ≠ o)))
      ∧ (Holders.exclusive o).drop o = .shared [] ∧ ∀ x, x ≠ o → (Holders.exclusive x).drop o = .exclusive x := by
  refine ⟨?_, ?_, fun os => rfl, by cases h <;> rfl, fun os => ?_, if_pos rfl, fun x other => if_neg other⟩
  · cases h <;> simp [Holders.admits]
  · cases h with
    | exclusive x => simp [Holders.admits]
    | shared os => cases os <;> simp [Holders.admits]
  · refine congrArg Holders.shared (List.filter_congr fun x _ => ?_)
    by_cases here : x = o <;> simp [here]

/-- Nothing is granted while the front request cannot be (R93). -/
theorem grantWaiting_held {line : Nat} {s : State}
    (held : ∀ q ∈ (claimRecord s line).waiting.head?, (claimRecord s line).holders.admits q.kind = false) (n : Nat) :
    grantWaiting line n s = s := by
  have none : grantFront line s = none := by
    unfold grantFront
    dsimp only
    split
    next => rfl
    next q rest waiting =>
      have refused := held q (by rw [waiting]; rfl)
      exact if_neg (by simp [refused])
  cases n with
  | zero => rfl
  | succ n => rw [grantWaiting, none]

/-- The front request's grant (R93). -/
def frontGranted (line : Nat) (q : ClaimRequest) (rest : List ClaimRequest) (s : State) : State :=
  setClaims line { holders := (claimRecord s line).holders.add q.kind q.owner, waiting := rest } s

theorem grantWaiting_granted {line : Nat} {q : ClaimRequest} {rest : List ClaimRequest} {s : State}
    (waiting : (claimRecord s line).waiting = q :: rest) (admits : (claimRecord s line).holders.admits q.kind = true)
    (n : Nat) :
    grantWaiting line (n + 1) s = grantWaiting line n (granteeStep q.owner (frontGranted line q rest s)) := by
  have front : grantFront line s = some (q.owner, frontGranted line q rest s) := by
    unfold grantFront
    dsimp only
    split
    next none =>
      rw [waiting] at none
      cases none
    next q' rest' here =>
      rw [waiting] at here
      cases here
      exact if_pos admits
  rw [grantWaiting, front]

/-- A job whose claim is granted places its source read, with the bytes known of its line (R132). -/
theorem jobGranted_placed {line : Nat} {s : State} (known : dataState s line ≠ .poisoned) :
    jobGranted line s =
      { s with
        health :=
          { s.health with
            jobs := s.health.jobs.map fun j =>
              if j.line = line then
                { j with known := match dataState s line with | .partialOf m => m | _ => Mask.full }
              else j }
        link :=
          { s.link with
            work := s.link.work ++ [{ plainRead (.jobRead line) (mappedLine s line) with first := true }] } } := by
  cases state : dataState s line with
  | poisoned => exact absurd state known
  | intact =>
    rw [jobGranted, state]
    rfl
  | partialOf m =>
    rw [jobGranted, state]
    rfl

/-- Settles O42: the grants from the front, and the step of each grantee. -/
theorem claimsAreGrantedFromTheFront : Obligations.ClaimsAreGrantedFromTheFront := by
  refine ⟨holders_spec, poisonedFor_iff, fun line s out => onPart_out out fun s => settle (settleClaims line s),
    fun line n s held => grantWaiting_held held n, fun line n q rest s waiting admits =>
      ⟨frontGranted line q rest s, grantWaiting_granted waiting admits n, ?_, rfl, claimRecord_set_eq ..⟩,
    fun g => ⟨fun r here => ?_, fun n t here => by rw [granteeStep, here], fun line poisoned => ?_,
      fun line known => jobGranted_placed known, fun q rest queue => ?_⟩⟩
  · constructor <;> simp [frontGranted]
  · have step : granteeStep (.read r.serial) g = readGranted r g := by rw [granteeStep, here]
    intro uncovered
    rw [step]
    refine ⟨fun known => ?_, fun poisoned => ?_⟩
    · exact if_neg (Bool.eq_false_iff.mp known)
    · have ended : readGranted r g = endRead r (answerRead r (plainResponse .read r.size .poison) g) := if_pos poisoned
      intro u answer
      rw [show u = _ from ended]
      exact endAnswered_effect r answer g
  · have ended : granteeStep (.job line) g = endJob line g := by rw [granteeStep, jobGranted, poisoned]
    rw [ended]
    exact endJob_effect line g
  · rw [granteeStep, noDataGranted, queue]
    rfl

/-! ### The requests of jobs and of reassigns with no data (R52, R75, R93, R107, R131) -/

/-- What asking for an EXCLUSIVE claim does to the claims (R93). -/
theorem exclusiveAsked_claims (line : Nat) (owner : Claimant) (s : State) :
    let v := requestClaim line .exclusive owner s
    v.link = { s.link with claims := v.link.claims }
      ∧ (∀ l, l ≠ line → claimRecord v l = claimRecord s l)
      ∧ (claimFree s line .exclusive = true → claimRecord v line = { holders := .exclusive owner, waiting := [] })
      ∧ (claimFree s line .exclusive = false →
        (claimRecord v line).holders = (claimRecord s line).holders
          ∧ (claimRecord v line).waiting = (claimRecord s line).waiting ++
            [{ kind := .exclusive, owner := owner }]) := by
  refine ⟨requestClaim_link .., fun l other => claimRecord_requestClaim_ne _ _ _ other,
    fun free => claimRecord_granted free owner, fun claimed => ?_⟩
  rw [claimRecord_waits claimed]
  exact ⟨rfl, rfl⟩

theorem jobsMayStart_iff (s : State) :
    jobsMayStart s = true ↔ s.metaCtl.phase = .fullReady ∧ s.pins.pwarn = false ∧ stagingEntryFree s = true := by
  simp [jobsMayStart, and_assoc]

/-- The job of the queue's head is in flight (R131). -/
def jobTaken (q : QueuedJob) (rest : List QueuedJob) (s : State) : State :=
  { s with
    health :=
      { s.health with
        queue := rest
        jobs := s.health.jobs ++ [{ line := q.line, reason := q.reason, known := Mask.full, staged := none }] } }

theorem startJob_taken {q : QueuedJob} {rest : List QueuedJob} {s : State} (may : jobsMayStart s = true)
    (queue : s.health.queue = q :: rest) :
    startJob s =
      if claimFree s q.line .exclusive then
        granteeStep (.job q.line) (requestClaim q.line .exclusive (.job q.line) (jobTaken q rest s))
      else requestClaim q.line .exclusive (.job q.line) (jobTaken q rest s) := by
  rw [startJob, queue, may, ← grantedAtOnce_eq]
  rfl

theorem startJob_idle {s : State} (idle : jobsMayStart s = false ∨ s.health.queue = []) : startJob s = s := by
  rcases idle with held | none
  · rw [startJob, held]
    cases s.health.queue <;> rfl
  · rw [startJob, none]

theorem noDataInService_iff (s : State) :
    noDataInService s = true ↔ ∃ line origin, Request.noData line origin ∈ s.remap.workList := by
  rw [noDataInService, List.any_eq_true]
  constructor
  · rintro ⟨r, member, serves⟩
    cases r with
    | noData line origin => exact ⟨line, origin, member⟩
    | _ => cases serves
  · rintro ⟨line, origin, member⟩
    exact ⟨_, member, rfl⟩

theorem askNoData_asks {q : NoDataRequest} {rest : List NoDataRequest} {s : State}
    (free : (s.remap.noDataAsked || noDataInService s) = false) (queue : s.remap.noData = q :: rest) :
    askNoData s =
      if claimFree s q.line .exclusive then
        granteeStep .noData
          (requestClaim q.line .exclusive .noData { s with remap := { s.remap with noDataAsked := true } })
      else requestClaim q.line .exclusive .noData { s with remap := { s.remap with noDataAsked := true } } := by
  rw [← grantedAtOnce_eq]
  unfold askNoData
  split
  next none =>
    rw [queue] at none
    cases none
  next here =>
    rw [queue] at here
    cases here
    exact if_neg (Bool.eq_false_iff.mp free)

theorem askNoData_idle {s : State} (idle : (s.remap.noDataAsked || noDataInService s) = true ∨ s.remap.noData = []) :
    askNoData s = s := by
  unfold askNoData
  split
  · rfl
  next here =>
    rcases idle with busy | none
    · exact if_pos busy
    · rw [here] at none
      cases none

/-- Settles O43: the start of a job and the request of a reassign with no data. -/
theorem jobsAndNoDataRequestsAskForClaims : Obligations.JobsAndNoDataRequestsAskForClaims := by
  intro s out may busy asked capacity
  have starts : jobsMayStart s = true ↔ may := jobsMayStart_iff s
  have serving : (s.remap.noDataAsked || noDataInService s) = true ↔ busy := by
    rw [Bool.or_eq_true, noDataInService_iff]
  refine ⟨?_, fun idle => ?_, fun q rest ready queue => ?_, fun idle => ?_, fun q rest free queue => ?_⟩
  · have free := stagingEntryFree_iff s
    rw [stagingCapacity_eq] at free
    exact free
  · exact onPart_idle (startJob_idle (idle.imp_left fun held => Bool.eq_false_iff.mpr (mt starts.mp held)))
  · obtain ⟨link, others, granted, waits⟩ := exclusiveAsked_claims q.line (.job q.line) (jobTaken q rest s)
    refine ⟨requestClaim q.line .exclusive (.job q.line) (jobTaken q rest s), ⟨?_, link, others, granted, waits⟩,
      by simp [jobTaken], by simp [jobTaken], onPart_leads out (startJob_taken (starts.mpr ready) queue)⟩
    constructor <;> simp [jobTaken]
  · exact onPart_idle (askNoData_idle (idle.imp_left serving.mpr))
  · let t : State := { s with remap := { s.remap with noDataAsked := true } }
    obtain ⟨link, others, granted, waits⟩ := exclusiveAsked_claims q.line .noData t
    refine ⟨requestClaim q.line .exclusive .noData t, ⟨?_, link, others, granted, waits⟩, by simp [t], by simp [t],
      onPart_leads out (askNoData_asks (Bool.eq_false_iff.mpr (mt serving.mp free)) queue)⟩
    constructor <;> simp [t]

end Sys2Proof.Machine
end

section
namespace Sys2Proof.Machine

/-! ### What the withdrawal of a metadata program leaves (R119) -/

/-- What a withdrawal under the fault leaves as it is: the Array Link but for the claims, the fault, the Metadata
Controller but for the repair list (R119). -/
structure WithdrawalKept (s t : State) : Prop where
  link : { t.link with claims := s.link.claims } = s.link
  fault : t.remap.fault = s.remap.fault
  metaCtl : { t.metaCtl with repair := s.metaCtl.repair } = s.metaCtl

theorem WithdrawalKept.refl (s : State) : WithdrawalKept s s := ⟨rfl, rfl, rfl⟩

theorem WithdrawalKept.trans {s t u : State} (first : WithdrawalKept s t) (second : WithdrawalKept t u) :
    WithdrawalKept s u :=
  ⟨(congrArg (fun x : ArrayLink => { x with claims := s.link.claims }) second.link).trans first.link,
    second.fault.trans first.fault,
    (congrArg (fun m : MetaControl => { m with repair := s.metaCtl.repair }) second.metaCtl).trans first.metaCtl⟩

theorem WithdrawalKept.work {s t : State} (kept : WithdrawalKept s t) : t.link.work = s.link.work := by
  rw [← kept.link]

theorem WithdrawalKept.inFlight {s t : State} (kept : WithdrawalKept s t) : t.link.inFlight = s.link.inFlight := by
  rw [← kept.link]

theorem WithdrawalKept.phase {s t : State} (kept : WithdrawalKept s t) : t.metaCtl.phase = s.metaCtl.phase := by
  rw [← kept.metaCtl]

theorem WithdrawalKept.foldl {α : Type} {f : State → α → State} (kept : ∀ s a, WithdrawalKept s (f s a)) (l : List α)
    (s : State) : WithdrawalKept s (l.foldl f s) := by
  induction l generalizing s with
  | nil => exact .refl s
  | cons a l ih => exact (kept s a).trans (ih _)

theorem endDrain_withdrawalKept (e : Ending) (s : State) : WithdrawalKept s (endDrain e s) := by
  refine ⟨?_, by simp, by simp⟩
  unfold endDrain
  split
  · rfl
  · dsimp only
    rw [dropClaim_link]
    dsimp only
    split
    · simp
    · rfl

theorem endThrough_withdrawalKept (n : Nat) (e : Ending) (s : State) : WithdrawalKept s (endThrough n e s) := by
  refine ⟨?_, by simp, by simp⟩
  unfold endThrough
  split
  · rfl
  · dsimp only
    rw [answerThrough_link]
    rfl

theorem endCourse_withdrawalKept (w : Writer) (e : Ending) (s : State) : WithdrawalKept s (endCourse w e s) := by
  cases w with
  | drain => exact endDrain_withdrawalKept e s
  | through n => exact endThrough_withdrawalKept n e s

theorem candidateLost_withdrawalKept (line : Nat) (s : State) : WithdrawalKept s (candidateLost line s) :=
  ⟨by simp, by simp, by simp⟩

theorem conclude_withdrawalKept (v : Verdict) (s : State) : WithdrawalKept s (conclude v s) := by
  unfold conclude
  split
  · exact .refl s
  next r rest _ =>
    refine .trans (t := headLeft rest s) ⟨rfl, rfl, rfl⟩ ?_
    dsimp only
    split
    · refine .trans ?_ (endCourse_withdrawalKept ..)
      split <;> exact ⟨rfl, rfl, rfl⟩
    · exact ⟨rfl, rfl, rfl⟩
    · exact endCourse_withdrawalKept ..
    · exact endCourse_withdrawalKept ..
    · split
      · exact ⟨rfl, rfl, rfl⟩
      · refine .trans ?_ (candidateLost_withdrawalKept _ _)
        exact ⟨rfl, rfl, rfl⟩

theorem imageWithdrawn_withdrawalKept (s : State) : WithdrawalKept s (imageWithdrawn s) := by
  have stated (line : Nat) (d : DataState) : WithdrawalKept s (setDataState line d s) := by
    unfold setDataState
    split
    · exact .refl s
    · exact ⟨rfl, rfl, rfl⟩
  unfold imageWithdrawn
  split
  · exact conclude_withdrawalKept _ s
  · exact .trans (t := setRecord _ .free s) ⟨rfl, rfl, rfl⟩ (conclude_withdrawalKept _ _)
  · exact conclude_withdrawalKept _ s
  · exact (stated _ _).trans (conclude_withdrawalKept _ _)
  all_goals exact .refl s

theorem withdrawn_withdrawalKept (l : MetaLine) (a : MetaAsker) (s : State) : WithdrawalKept s (withdrawn l a s) := by
  cases a with
  | remap => exact imageWithdrawn_withdrawalKept s
  | command =>
    rw [withdrawn, settingsFailed]
    split <;> exact ⟨rfl, rfl, rfl⟩
  | repair => exact ⟨rfl, rfl, rfl⟩

theorem withdrawOp_withdrawalKept (o : ArrayOp) (s : State) : WithdrawalKept s (withdrawOp o s) := by
  unfold withdrawOp
  split
  · exact .foldl (fun t a => withdrawn_withdrawalKept _ a t) _ s
  · exact .refl s

/-! ### The metadata fault (R119) -/

/-- The fault has been set and what could be withdrawn has left the pending work (R119). -/
def faultRaised (s : State) : State :=
  { s with
    remap := { s.remap with fault := true }
    link := { s.link with work := s.link.work.filter fun o => !o.withdrawable }
    events := s.events.post .metadataFault }

/-- Every withdrawn program has answered its requests (R119). -/
def faultAnswered (s : State) : State :=
  (s.link.work.filter (·.withdrawable)).foldl (fun v o => withdrawOp o v) (faultRaised s)

/-- The end of the repair under the fault (R119, R167). -/
def repairEnded (s : State) : State :=
  { s with metaCtl := { s.metaCtl with phase := .fullReady, repair := [] }, events := s.events.post .phaseChange }

theorem setFault_eq {s : State} (sound : s.remap.fault = false) :
    setFault s =
      if (faultAnswered s).metaCtl.phase = .repairing then repairEnded (faultAnswered s) else faultAnswered s := by
  rw [setFault, if_neg (by simp [sound])]
  rfl

theorem setFault_set {s : State} (fault : s.remap.fault = true) : setFault s = s := if_pos fault

theorem faultAnswered_kept (s : State) : WithdrawalKept (faultRaised s) (faultAnswered s) :=
  .foldl (fun t o => withdrawOp_withdrawalKept o t) _ _

theorem faultRaised_sealed (s : State) : ∀ o ∈ (faultRaised s).link.work, o.withdrawable = false := by
  simp [faultRaised]

/-- The fault, set: no metadata program is left that was never issued, and a repair has ended (R119). -/
theorem setFault_spec {s : State} (sound : s.remap.fault = false) :
    (setFault s).remap.fault = true ∧ (∀ o ∈ (setFault s).link.work, o.withdrawable = false)
      ∧ (s.metaCtl.phase = .repairing → (setFault s).metaCtl = { s.metaCtl with phase := .fullReady, repair := [] })
      ∧ (s.metaCtl.phase ≠ .repairing → (setFault s).metaCtl.phase = s.metaCtl.phase) := by
  have kept := faultAnswered_kept s
  obtain ⟨-, fault, others⟩ := id kept
  have phase : (faultAnswered s).metaCtl.phase = s.metaCtl.phase := kept.phase
  have free := faultRaised_sealed s
  rw [← kept.work] at free
  rw [setFault_eq sound, phase]
  split
  · next repairs =>
    refine ⟨fault, free, fun _ => ?_, fun other => absurd repairs other⟩
    exact congrArg (fun m : MetaControl => { m with phase := .fullReady, repair := [] }) others
  · next other => exact ⟨fault, free, fun repairs => absurd repairs other, fun _ => phase⟩

theorem setFault_fault (s : State) : (setFault s).remap.fault = true := by
  cases sound : s.remap.fault with
  | true => rw [setFault_set sound, sound]
  | false =>
    obtain ⟨fault, -⟩ := setFault_spec sound
    exact fault

/-- Neither the fault nor what it withdraws takes the operation off the array port (R119). -/
theorem setFault_inFlight (s : State) : (setFault s).link.inFlight = s.link.inFlight := by
  cases sound : s.remap.fault with
  | true => rw [setFault_set sound]
  | false =>
    have flying : (faultAnswered s).link.inFlight = s.link.inFlight := (faultAnswered_kept s).inFlight
    rw [setFault_eq sound]
    split <;> exact flying

/-- The fault, set where no metadata program can be withdrawn (R119). -/
theorem setFault_bare {s : State} (sound : s.remap.fault = false)
    (none : s.link.work.all (fun o => !o.withdrawable) = true) :
    setFault s =
      if s.metaCtl.phase = .repairing then repairEnded (post .metadataFault { s with
          remap := { s.remap with fault := true } })
      else post .metadataFault { s with remap := { s.remap with fault := true } } := by
  have gone : s.link.work.filter (·.withdrawable) = [] := by simpa [List.filter_eq_nil_iff] using none
  have kept : s.link.work.filter (fun o => !o.withdrawable) = s.link.work := by simpa [List.filter_eq_self] using none
  have raised : faultAnswered s = post .metadataFault { s with remap := { s.remap with fault := true } } := by
    rw [faultAnswered, gone, List.foldl_nil, faultRaised, kept]
    rfl
  rw [setFault_eq sound, raised]
  rfl

/-! ### The end of a metadata program (R157, R167) -/

theorem metaDone_of_due {named : MetaLine → List MetaAsker → Bool} {l : MetaLine} {askers : List MetaAsker} {s : State}
    (due : dueFor s (.metaProgram l askers)) (ok : Bool) :
    metaDone named ok s = if named l askers then metaProgramDone l askers ok (portFreed s) else s := by
  rw [metaDone, metaDue_of_due due]
  rfl

theorem advanceRepair_nil {s : State} (repairs : s.metaCtl.phase = .repairing) (none : s.metaCtl.repair = []) :
    advanceRepair s = setPhase .fullReady s := by
  rw [advanceRepair, if_pos repairs, none]

theorem advanceRepair_cons {l : MetaLine} {rest : List MetaLine} {s : State} (repairs : s.metaCtl.phase = .repairing)
    (list : s.metaCtl.repair = l :: rest) :
    advanceRepair s = if repairOutstanding s then s else requestMeta l .repair s := by
  rw [advanceRepair, if_pos repairs, list]

/-- The list of the repair without the line at its head, which it holds once (R166). -/
theorem unlistRepair_head {l : MetaLine} {rest : List MetaLine} {s : State} (list : s.metaCtl.repair = l :: rest)
    (once : l ∉ rest) : unlistRepair l s = { s with metaCtl := { s.metaCtl with repair := rest } } := by
  have kept : rest.filter (fun u => decide (u ≠ l)) = rest := by
    rw [List.filter_eq_self]
    exact fun u member => decide_eq_true fun same => once (same ▸ member)
  have left : s.metaCtl.repair.filter (fun u => decide (u ≠ l)) = rest := by
    rw [list, List.filter_cons, if_neg (by simp), kept]
  rw [unlistRepair, left]

/-- A command waits for a settings program (R26, R49, R50). -/
def awaitsSettings (s : State) : Prop := s.mgmt.busy = some .header ∨ ∃ rest, s.mgmt.busy = some (.save rest)

theorem settingsFailed_awaited {s : State} (waits : awaitsSettings s) :
    settingsFailed s = complete .metadataFault s := by
  obtain header | ⟨rest, save⟩ := waits
  · rw [settingsFailed, header]
  · rw [settingsFailed, save]

theorem settingsDone_last {s : State} (last : s.mgmt.busy = some .header ∨ s.mgmt.busy = some (.save [])) :
    settingsDone s = complete .done s := by
  obtain header | save := last
  · rw [settingsDone, header]
  · rw [settingsDone, save]

theorem settingsDone_next {j : Nat} {rest : List Nat} {s : State} (save : s.mgmt.busy = some (.save (j :: rest))) :
    settingsDone s =
      if s.remap.fault then complete .metadataFault s
      else requestMeta (.settings j) .command { s with mgmt := { s.mgmt with busy := some (.save rest) } } := by
  rw [settingsDone, save]

/-! ### Joining a pending program (R157) -/

theorem joins_iff (o : ArrayOp) (l : MetaLine) :
    o.joins l = true ↔ o.issued = false ∧ ∃ askers, o.purpose = .metaProgram l askers := by
  unfold ArrayOp.joins
  split
  next u askers program =>
    simp only [program, Bool.and_eq_true, decide_eq_true_iff, Bool.not_eq_true', Purpose.metaProgram.injEq]
    constructor
    · rintro ⟨same, fresh⟩
      exact ⟨fresh, askers, same, rfl⟩
    · rintro ⟨fresh, _, same, -⟩
      exact ⟨same, fresh⟩
  next other => exact iff_of_false (by simp) fun ⟨_, askers, program⟩ => other l askers program

theorem joinFirst_first {l : MetaLine} (a : MetaAsker) {before : List ArrayOp} {o : ArrayOp} (after : List ArrayOp)
    (apart : ∀ x ∈ before, x.joins l = false) (here : o.joins l = true) :
    joinFirst l a (before ++ o :: after) = before ++ o.addAsker a :: after := by
  induction before with
  | nil => rw [List.nil_append, joinFirst, if_pos here, List.nil_append]
  | cons x before ih =>
    have head := apart x List.mem_cons_self
    rw [List.cons_append, joinFirst, if_neg (by simp [head]), ih fun y member =>
      apart y (List.mem_cons_of_mem x member),
      List.cons_append]

theorem requestMeta_joined {l : MetaLine} (a : MetaAsker) {s : State} {before : List ArrayOp} {o : ArrayOp}
    {after : List ArrayOp} {askers : List MetaAsker} (work : s.link.work = before ++ o :: after)
    (apart : ∀ x ∈ before, x.issued = false → ∀ others, x.purpose ≠ .metaProgram l others) (fresh : o.issued = false)
    (program : o.purpose = .metaProgram l askers) :
    requestMeta l a s =
      { s with
        link :=
          { s.link with work := before ++ { o with purpose := .metaProgram l (askers ++ [a]) } :: after } } := by
  have here : o.joins l = true := (joins_iff o l).mpr ⟨fresh, askers, program⟩
  have others (x : ArrayOp) (member : x ∈ before) : x.joins l = false :=
    Bool.eq_false_iff.mpr fun joins =>
      let ⟨fresh, askers, program⟩ := (joins_iff x l).mp joins
      apart x member fresh askers program
  have joined : o.addAsker a = { o with purpose := .metaProgram l (askers ++ [a]) } := by
    rw [ArrayOp.addAsker, program]
  have some : s.link.work.any (·.joins l) = true := by
    rw [work, List.any_append, List.any_cons, here, Bool.true_or, Bool.or_true]
  rw [requestMeta, if_pos some, work, joinFirst_first a after others here, joined]

/-- Settles O44: what the programs of the settings lines, of the repair and of several requests lead to. -/
theorem metadataProgramsServeTheirRequests : Obligations.MetadataProgramsServeTheirRequests := by
  intro s
  refine ⟨fun j due other => ?_, fun l rest due repairs list once none => ?_, setFault_set, setFault_spec,
    fun l askers ok due => ?_, ?_, fun sound => setFault_eq sound, fun o =>
      ⟨fun l askers program => ?_, fun other => ?_⟩,
    advanceRepair_other, fun repairs none => ?_, fun l rest repairs list => advanceRepair_cons repairs list,
    fun l a => ⟨fun apart => ?_, fun before o after askers work apart fresh program =>
      requestMeta_joined a work apart fresh program⟩⟩
  · obtain ⟨out, -⟩ := id due
    intro f done
    have named (ok : Bool) : exec (.settingsProgramComplete ok) s
        = .next (metaProgramDone (.settings j) [.command] ok (portFreed s)) :=
      onPart_leads out ((metaDone_of_due due ok).trans (if_pos rfl))
    have succeeds : exec (.settingsProgramComplete true) s = .next (advanceRepair (settingsDone f)) := named true
    have rests (v : State) (same : v.metaCtl.phase = s.metaCtl.phase) : advanceRepair v = v :=
      advanceRepair_other (by rwa [same])
    refine ⟨fun last => ?_, fun next rest save sound => ?_, fun next rest save fault => ?_,
      fun waits sound none => ?_⟩
    · rw [succeeds, rests _ (by simp [f, portFreed]), settingsDone_last (s := f) last]
      rfl
    · rw [succeeds, rests _ (by simp [f, portFreed]), settingsDone_next (s := f) save,
        if_neg (by simpa [f, portFreed] using sound)]
      rfl
    · rw [succeeds, rests _ (by simp [f, portFreed]), settingsDone_next (s := f) save,
        if_pos (by simpa [f, portFreed] using fault)]
      rfl
    · have faulted := setFault_plain (s := portFreed s) sound none other
      have fails : exec (.settingsProgramComplete false) s
          = .next (advanceRepair (settingsFailed (setFault (portFreed s)))) := named false
      rw [fails, faulted, rests _ (by simp [portFreed])]
      exact congrArg Host.Outcome.next (settingsFailed_awaited waits)
  · obtain ⟨out, -⟩ := id due
    have named (ok : Bool) : exec (.repairProgramComplete ok) s
        = .next (metaProgramDone l [.repair] ok (portFreed s)) :=
      onPart_leads out ((metaDone_of_due due ok).trans (if_pos rfl))
    let left : State := { portFreed s with metaCtl := { s.metaCtl with repair := rest } }
    have unlisted : unlistRepair l (portFreed s) = left := unlistRepair_head list once
    have succeeds : exec (.repairProgramComplete true) s = .next (advanceRepair left) := by
      rw [← unlisted]
      exact named true
    refine ⟨fun empty => ?_, fun l' rest' next still => ?_, fun sound => ?_⟩
    · rw [succeeds, advanceRepair_nil (s := left) repairs empty]
      simp [left, setPhase, post, portFreed, empty]
    · have outstanding : ¬repairOutstanding left = true := Bool.eq_false_iff.mp still
      rw [succeeds, advanceRepair_cons (s := left) repairs next, if_neg outstanding]
    · have fails : exec (.repairProgramComplete false) s = .next (advanceRepair (setFault (portFreed s))) := named false
      have phase : (portFreed s).metaCtl.phase = .repairing := repairs
      rw [fails, setFault_bare (s := portFreed s) sound none, if_pos phase, advanceRepair_other (by simp [repairEnded])]
      rfl
  · obtain ⟨out, -⟩ := id due
    have unnamed {named : MetaLine → List MetaAsker → Bool} (none : named l askers ≠ true) :
        onPart (metaDone named ok) s = .next s :=
      onPart_idle ((metaDone_of_due due ok).trans (if_neg none))
    refine ⟨?_, fun apart => unnamed ?_, fun apart => unnamed (by simpa [namesRepair] using apart), ?_⟩
    · rintro ⟨j, rfl⟩
      exact unnamed (by simp [namesImage])
    · obtain ⟨k, rfl⟩ | apart := apart
      · simp [namesSettings]
      · cases l <;> simp [namesSettings, apart]
    intro f unlisted u
    have result : metaProgramDone l askers ok f = u := by cases ok <;> rfl
    have leads {named : MetaLine → List MetaAsker → Bool} (names : named l askers = true) :
        onPart (metaDone named ok) s = .next u :=
      onPart_leads out ((metaDone_of_due due ok).trans ((if_pos names).trans result))
    refine ⟨?_, ?_, fun asked => leads (by simpa [namesRepair] using asked)⟩
    · rintro ⟨k, rfl⟩
      exact leads rfl
    · rintro ⟨j, rfl⟩ asked
      exact leads (by simpa [namesSettings] using asked)
  · intro done
    exact ⟨fun ok l => ⟨rfl, rfl⟩, settingsDone_last, fun next rest save => settingsDone_next save,
      fun l waits => ⟨settingsFailed_awaited waits, settingsFailed_awaited waits⟩⟩
  · rw [withdrawOp, program]
  · unfold withdrawOp
    split
    next l askers program => exact absurd program (other l askers)
    next => rfl
  · rw [advanceRepair_nil repairs none]
    rfl
  · rw [requestMeta_placed a apart]
    cases l <;> simp [placeOp, metaArrayLine, Nat.add_assoc]

end Sys2Proof.Machine
end

section
namespace Sys2Proof.Machine

/-! ### The loading reads (R159 to R162) -/

theorem loadInFlight_of_due {l : MetaLine} {s : State} (due : dueFor s (.loadRead l)) : loadInFlight s = some l :=
  inFlightFor_due due _

theorem headerValid_iff (s : State) (ecc : Ecc) (h : HeaderImage) :
    headerValid s ecc h = true ↔ ecc ≠ .uncorrectable ∧ h.marker = true ∧ h.geom = s.pins.geom := by
  simp [headerValid, and_assoc]

theorem headerDone_eq {s : State} (due : dueFor s (.loadRead (.settings 0))) (ecc : Ecc) (h : HeaderImage) :
    headerDone ecc h s =
      if headerValid (portFreed s) ecc h then placeLoad (.image 0) (takeHeader h (portFreed s))
      else setPhase .unformatted (portFreed s) := by
  rw [headerDone, loadInFlight_of_due due]
  rfl

/-- The fence, the lock and the settings that a valid header gives (R34, R35, R159). -/
theorem takeHeader_eq (h : HeaderImage) (s : State) :
    takeHeader h s =
      { s with
        fence :=
          { s.fence with
            current := loadedFence s h.stored, stored := loadedFence s h.stored, lockAtStart := h.lockAtStart
            retain := h.retain
            lock := if h.lockAtStart = true ∧ s.fence.lock = .unlocked then .locked else s.fence.lock
            refusals := if h.lockAtStart = true ∧ s.fence.lock = .unlocked then 0 else s.fence.refusals } } := by
  by_cases locks : h.lockAtStart = true ∧ s.fence.lock = .unlocked
  · simp [takeHeader, locks]
  · simp [takeHeader, locks]

/-! ### The slot records (R160, R161) -/

theorem addRepair_eq (l : MetaLine) (s : State) :
    addRepair l s =
      { s with
        metaCtl :=
          { s.metaCtl with
            repair := if l ∈ s.metaCtl.repair then s.metaCtl.repair else s.metaCtl.repair ++ [l] } } := by
  by_cases listed : l ∈ s.metaCtl.repair <;> simp [addRepair, listed]

/-- A record without a state, or an IN_USE record that is not well formed, damages its slot (R160). -/
theorem takeRecord_damaged {slot : Nat} {r : RawRecord} {s : State}
    (bad : r.state = none
      ∨ (r.state = some .inUse
          ∧ (r.data = none ∨ r.origin = none ∨ s.fence.uNative ≤ r.line ∨ ∃ d ∈ r.data, dataFormed d = false))) :
    takeRecord slot r s = damageSlot slot s := by
  obtain state | ⟨state, fields⟩ := bad
  · rw [takeRecord, state]
  · rw [takeRecord, state]
    dsimp only
    split
    next d o data origin =>
      refine if_neg fun ⟨within, formed⟩ => ?_
      obtain absent | absent | above | ⟨_, member, unformed⟩ := fields
      · simp [absent] at data
      · simp [absent] at origin
      · omega
      · rw [data, Option.mem_some_iff] at member
        simp [← member, formed] at unformed
    next => rfl

theorem takeRecord_inUse {slot : Nat} {r : RawRecord} {d : DataState} {o : Origin} {s : State}
    (state : r.state = some .inUse) (data : r.data = some d) (origin : r.origin = some o)
    (within : r.line < s.fence.uNative) (formed : dataFormed d = true) :
    takeRecord slot r s = takeInUse slot r.line d o r.generation s := by
  rw [takeRecord, state, data, origin]
  exact if_pos ⟨within, formed⟩

theorem takeInUse_new {slot line : Nat} {d : DataState} {o : Origin} {g : BitVec 8} {s : State}
    (new : remapEntry s line = none) : takeInUse slot line d o g s = bindSlot slot line d o g s := by
  rw [takeInUse, new]

theorem takeInUse_held {slot line : Nat} {d : DataState} {o : Origin} {g : BitVec 8} {s : State} {held : RemapEntry}
    (here : remapEntry s line = some held) :
    takeInUse slot line d o g s =
      if 1 ≤ (g - held.generation).toNat ∧ (g - held.generation).toNat ≤ 127 then
        damageSlot held.slot (bindSlot slot line d o g s)
      else damageSlot slot s := by
  rw [takeInUse, here]
  simp [ahead]

/-! ### The end of the image's loading (R104, R162) -/

theorem imageLoaded_placed (s : State) :
    imageLoaded s =
      placeLoad (.settings 1)
        { s with
          remap := { s.remap with loaded := true }
          events :=
            if freeCount s = 0 then (s.events.post .sparesLow).post .sparesExhausted
            else if freeCount s ≤ 64 then s.events.post .sparesLow
            else s.events } := by
  have low : freeCount { s with remap := { s.remap with loaded := true } } = freeCount s := freeCount_congr rfl rfl
  have judged : freeCount (post .sparesLow { s with remap := { s.remap with loaded := true } }) = freeCount s :=
    freeCount_congr rfl rfl
  rw [imageLoaded]
  dsimp only
  rw [low]
  by_cases few : freeCount s ≤ 64
  · rw [if_pos few, if_pos few, judged]
    split <;> rfl
  · have some : freeCount s ≠ 0 := by omega
    rw [if_neg few, if_neg few, low, if_neg some, if_neg some]

/-! ### The settings lines (R48, R162) -/

theorem layFour_all {α : Type} {new table : List α} (count : new.length = 4) (size : table.length = 4) :
    layFour 0 new table = new := by
  refine List.ext_getElem (by simp [layFour, count, size]) fun i inside here => ?_
  have below : i < 4 := by omega
  simp [layFour, below, here]

/-- Four new entries, laid over a table from an index on. -/
theorem layFour_eq {α : Type} {start : Nat} {new table : List α} (count : new.length = 4)
    (room : start + 4 ≤ table.length) :
    layFour start new table = table.take start ++ new ++ table.drop (start + 4) := by
  refine List.ext_getElem (by simp [layFour, count]; omega) fun i inside here => ?_
  have size : i < table.length := by simpa [layFour] using inside
  simp only [layFour, List.getElem_mapIdx]
  by_cases before : i < start
  · have taken : i < (table.take start).length := by simp; omega
    rw [if_neg (by omega), List.getElem_append_left (by rw [List.length_append]; omega),
      List.getElem_append_left taken, List.getElem_take]
  · by_cases within : i < start + 4
    · rw [if_pos ⟨by omega, within⟩, List.getElem?_eq_getElem (by omega), Option.getD_some,
        List.getElem_append_left (by simp [count]; omega), List.getElem_append_right (by simp; omega)]
      congr 1
      simp
      omega
    · rw [if_neg (by omega), List.getElem_append_right (by simp [count]; omega), List.getElem_drop]
      congr 1
      simp [count]
      omega

theorem settingsReadDone_eq {j : Nat} {s : State} (due : dueFor s (.loadRead (.settings (j + 1)))) (ecc : Ecc)
    (classes : List RawClass) (regions : List RegionEntry) :
    settingsReadDone ecc classes regions s =
      (let taken :=
         if ecc = .uncorrectable then addRepair (.settings (j + 1)) (portFreed s)
         else takeSettings (j + 1) classes regions (portFreed s)
       if j + 1 < 5 then placeLoad (.settings (j + 2)) taken else settle (enterReadReady taken)) := by
  rw [settingsReadDone, loadInFlight_of_due due]
  rfl

/-- Settles O45: the loading reads in the order they are placed, and what each one takes. -/
theorem loadingReadsBuildTheState : Obligations.LoadingReadsBuildTheState := by
  intro s f reads
  refine ⟨fun ecc h due => ?_, fun ecc k r0 r1 r2 r3 due => ?_, fun ecc j classes regions due above => ?_,
    fun slot => rfl, fun l => addRepair_eq l s, imageLoaded_placed s, fun classes regions four size stored => ?_,
    fun j classes regions above within four size stored => ?_, fun slot r state => ?_, fun slot r state => ?_,
    fun slot r bad => takeRecord_damaged bad, fun slot r d o state data origin within formed => ?_⟩
  · obtain ⟨out, -⟩ := id due
    intro valid fence
    have judged : headerValid f ecc h = true ↔ valid := headerValid_iff f ecc h
    refine ⟨fun bad => onPart_leads out ?_, fun good => onPart_leads out ?_⟩
    · rw [headerDone_eq due, if_neg (mt judged.mp bad)]
      rfl
    · rw [headerDone_eq due, if_pos (judged.mpr good), takeHeader_eq]
      rfl
  · obtain ⟨out, -⟩ := id due
    intro taken image
    have leads := imageReadDone_eq (loadInFlight_of_due due) ecc [r0, r1, r2, r3]
    refine ⟨fun readable => onPart_leads out (leads.trans ?_), fun lost => onPart_leads out (leads.trans ?_)⟩
    · rw [imageTaken, if_neg readable]
      rfl
    · rw [imageTaken, if_pos lost]
      rfl
  · obtain ⟨out, -⟩ := id due
    obtain ⟨j, rfl⟩ := Nat.exists_eq_add_of_le' above
    intro taken
    refine ⟨fun below => onPart_leads out ?_, fun last => onPart_leads out ?_⟩
    · exact (settingsReadDone_eq due ecc classes regions).trans (if_pos below)
    · exact (settingsReadDone_eq due ecc classes regions).trans (if_neg (by omega))
  · have loaded (r : RawClass) : loadedClass r = match r.mode, r.patrol, r.threshold with
        | some m, some p, some .off => { mode := m, patrol := p, threshold := .off }
        | some m, some p, some (.bits k) =>
          if 1 ≤ k ∧ k ≤ 8 then { mode := m, patrol := p, threshold := .bits k } else classDefault
        | _, _, _ => classDefault := by
      unfold loadedClass
      obtain ⟨mode, patrol, threshold⟩ := r
      cases mode <;> cases patrol <;> rcases threshold with _ | _ | k <;> simp [thresholdFormed]
    intro new
    have mapped : classes.map loadedClass = new := List.map_congr_left fun r _ => loaded r
    rw [takeSettings, if_pos rfl]
    dsimp only
    rw [mapped, layFour_all (by simp [new, four]) size, layFour_all (by simp [new, four]) stored]
  · have loaded (r : RegionEntry) : loadedRegion s.fence.uNative r
        = if r.first ≤ r.last ∧ r.last < s.fence.uNative ∧ r.cls ≤ 3 then r else regionDefault := by
      simp [loadedRegion, regionFormed]
    intro new laid
    have mapped : regions.map (loadedRegion s.fence.uNative) = new := List.map_congr_left fun r _ => loaded r
    rw [takeSettings, if_neg (by omega)]
    dsimp only
    rw [mapped, layFour_eq (by simp [new, four]) (by omega), layFour_eq (by simp [new, four]) (by omega)]
  · rw [takeRecord, state]
  · rw [takeRecord, state]
  · intro e bound
    rw [takeRecord_inUse state data origin within formed]
    refine ⟨takeInUse_new, fun held here => ?_⟩
    intro lead
    refine ⟨fun low high => ?_, fun out => ?_⟩
    · exact (takeInUse_held here).trans (if_pos ⟨low, high⟩)
    · exact (takeInUse_held here).trans (if_neg (by omega))

end Sys2Proof.Machine
end

section
namespace Sys2Proof.Machine

/-! ### FORMAT_ARRAY (R164, R165) -/

theorem formatInFlight_of_due {n : Nat} {s : State} (due : dueFor s (.formatProgram n)) : formatInFlight s = some n :=
  inFlightFor_due due _

theorem formatDone_eq {n : Nat} {s : State} (due : dueFor s (.formatProgram n)) (ok : Bool) :
    formatDone ok s =
      if ok = false then formatFails (portFreed s)
      else if n < 1029 then placeFormat (n + 1) (portFreed s) else formatEnds (portFreed s) := by
  have last : n + 1 < Config.formatPrograms ↔ n < 1029 := Nat.succ_lt_succ_iff
  rw [formatDone, formatInFlight_of_due due]
  simp only [last, Bool.not_eq_true']
  rfl

theorem exec_formatArray {s : State} (free : idle s = true) :
    exec .formatArray s = .next (formatArray (taken 0x18#8 s)) := congrArg _ (takeCommand_idle free _ _)

theorem formatArray_phase {s : State} (other : s.metaCtl.phase ≠ .unformatted) :
    formatArray s = complete .notReady s := if_pos other

theorem formatArray_refused {r : ResultCode} {s : State} (phase : s.metaCtl.phase = .unformatted)
    (refused : lockRefusal s = some r) : formatArray s = complete r s := by
  rw [formatArray, if_neg (not_not_intro phase), refused]

theorem formatArray_unlocked {s : State} (phase : s.metaCtl.phase = .unformatted) (lock : s.fence.lock = .unlocked) :
    formatArray s = if s.remap.fault then complete .metadataFault s else startFormat s := by
  rw [formatArray, if_neg (not_not_intro phase), lockRefusal, lock]

/-- Where a failed formatting ends (R165). -/
theorem formatFails_bare {s : State} (none : s.link.work.all (fun o => !o.withdrawable) = true)
    (phase : s.metaCtl.phase = .formatting) :
    let t := formatFails (portFreed s)
    Keeps [.link, .remap, .mgmt, .events, .metaCtl] s t
      ∧ t.link = { s.link with inFlight := Option.none } ∧ t.remap = { s.remap with fault := true }
      ∧ t.mgmt =
          { s.mgmt with result := 0x09#8, rdata := List.replicate 8 0#32, busy := Option.none }
      ∧ t.metaCtl = { s.metaCtl with phase := .unformatted }
      ∧ (s.remap.fault = false →
        t.events = ((s.events.post .metadataFault).post .commandDone).post .phaseChange) := by
  intro t
  cases sound : s.remap.fault with
  | true =>
    have same : setFault (portFreed s) = portFreed s := setFault_set sound
    have result : t = setPhase .unformatted (complete .metadataFault (portFreed s)) := by rw [← same]; rfl
    rw [result]
    refine ⟨by constructor <;> simp [portFreed], rfl, ?_, rfl, rfl, fun other => by cases other⟩
    simp [portFreed, ← sound]
  | false =>
    have raised := setFault_plain (s := portFreed s) sound none (by simp [portFreed, phase])
    have result : t = setPhase .unformatted (complete .metadataFault
        (post .metadataFault { portFreed s with remap := { (portFreed s).remap with fault := true } })) := by
      rw [← raised]
      rfl
    rw [result]
    exact ⟨by constructor <;> simp [portFreed], rfl, rfl, rfl, rfl, fun _ => rfl⟩

/-- Settles O46: FORMAT_ARRAY judged, and each of its programs completed. -/
theorem formattingProgramsTheMetadataArea : Obligations.FormattingProgramsTheMetadataArea := by
  intro s program
  refine ⟨fun free => ⟨fun other => ?_, fun phase r refused => ?_, fun phase lock fault => ?_,
    fun phase lock sound => ?_⟩, fun n due => ⟨fun below => ?_, fun last => ?_, ?_, ?_⟩⟩
  · refine ⟨complete .notReady (taken 0x18#8 s), ?_, complete_taken_keeps .., complete_taken_completed ..⟩
    rw [exec_formatArray free, formatArray_phase (s := taken 0x18#8 s) other]
  · refine ⟨complete r (taken 0x18#8 s), ?_, complete_taken_keeps .., complete_taken_completed ..⟩
    rw [exec_formatArray free, formatArray_refused (s := taken 0x18#8 s) phase refused]
  · refine ⟨complete .metadataFault (taken 0x18#8 s), ?_, complete_taken_keeps .., complete_taken_completed ..⟩
    rw [exec_formatArray free, formatArray_unlocked (s := taken 0x18#8 s) phase lock]
    exact congrArg Host.Outcome.next (if_pos fault)
  · have started : formatArray (taken 0x18#8 s) = startFormat (taken 0x18#8 s) :=
      (formatArray_unlocked (s := taken 0x18#8 s) phase lock).trans (if_neg (by simp [taken, sound]))
    rw [exec_formatArray free, started]
    rfl
  all_goals obtain ⟨out, -⟩ := id due
  · refine onPart_leads out ((formatDone_eq due true).trans ?_)
    rw [if_neg (by simp), if_pos below]
    rfl
  · refine ⟨formatEnds (portFreed s), onPart_leads out ((formatDone_eq due true).trans ?_), ?_, rfl, rfl, rfl, ?_, rfl,
      rfl, rfl⟩
    · rw [if_neg (by simp), if_neg (by omega)]
    · constructor <;> simp [formatEnds, startLoading, placeLoad, portFreed]
    · simp [formatEnds, startLoading, placeLoad, portFreed, plainRead, metaArrayLine]
  · exact onPart_leads out ((formatDone_eq due false).trans (if_pos rfl))
  · refine ⟨formatFails (portFreed s), onPart_leads out ((formatDone_eq due false).trans (if_pos rfl)), rfl, ?_, rfl,
      rfl, ?_, formatFails_bare⟩
    · simp [formatFails, setFault_fault]
    · simp [formatFails, setFault_inFlight, portFreed]

end Sys2Proof.Machine
end

section
namespace Sys2Proof.Machine

/-! ### A taken command that completes (R173) -/

section
variable {s : State} {c : Instr} {code : BitVec 8} {r : ResultCode}

theorem refused_of_runs (runs : exec c s = .next (complete r (taken code s))) :
    ∃ t, exec c s = .next t ∧ Keeps [.mgmt, .events] s t ∧ Completed code r [] s t :=
  ⟨_, runs, complete_taken_keeps .., complete_taken_completed ..⟩

/-- A command that completes with data writes the Management Link and the events alone (R173). -/
theorem answered_of_runs {data : List Word} (runs : exec c s = .next (completeWith r data (taken code s))) :
    ∃ t, exec c s = .next t ∧ Keeps [.mgmt, .events] s t ∧ Completed code r data s t := by
  refine ⟨_, runs, ?_, rfl, rfl⟩
  constructor <;> simp [taken]

end

theorem outsideGeometryFault_fault {s : State} (fault : s.metaCtl.phase = .geometryFault) (carry : State → State) :
    outsideGeometryFault carry s = complete .notReady s := if_pos fault

theorem outsideGeometryFault_other {s : State} (other : s.metaCtl.phase ≠ .geometryFault) (carry : State → State) :
    outsideGeometryFault carry s = carry s := if_neg other

/-- A command under the map lock, in service and with the lock OPEN (R30). -/
theorem underLock_taken_open {s : State} (service : s.metaCtl.phase.starting = false) (lock : s.fence.lock = .unlocked)
    (code : BitVec 8) (carry : State → State) : underLock carry (taken code s) = carry (taken code s) :=
  underLock_of_unlocked (s := taken code s) (Bool.eq_false_iff.mp service) lock carry

theorem underLock_taken_refused {s : State} {r : ResultCode} (service : s.metaCtl.phase.starting = false)
    (refused : lockRefusal s = some r) (code : BitVec 8) (carry : State → State) :
    underLock carry (taken code s) = complete r (taken code s) :=
  underLock_of_refusal (s := taken code s) (Bool.eq_false_iff.mp service) refused carry

/-! ### SET_FENCE (R24, R25, R27) -/

section
variable {s : State}

theorem setFence_bad (bad : ¬(1 ≤ paramNat s 0 ∧ paramNat s 0 ≤ s.fence.uNative ∧ paramNat s 1 ≤ 1)) :
    setFence s = complete .badParameter s := if_pos (by omega)

theorem setFence_volatile (fits : 1 ≤ paramNat s 0 ∧ paramNat s 0 ≤ s.fence.uNative ∧ paramNat s 1 ≤ 1)
    (volatile : paramNat s 1 = 0) :
    setFence s = complete .done { s with fence := { s.fence with current := paramNat s 0 } } :=
  (if_neg (by omega)).trans (if_pos volatile)

theorem setFence_stored (fits : 1 ≤ paramNat s 0 ∧ paramNat s 0 ≤ s.fence.uNative ∧ paramNat s 1 ≤ 1)
    (stored : paramNat s 1 = 1) :
    setFence s =
      if s.remap.fault then complete .metadataFault s
      else storeHeader { s with fence := { s.fence with current := paramNat s 0, stored := paramNat s 0 } } :=
  (if_neg (by omega)).trans (if_neg (by omega))

end

/-- Settles O47: SET_FENCE in the order of its tests, and READ_LIMITS. -/
theorem fenceCommandsMoveAndReportTheFence : Obligations.FenceCommandsMoveAndReportTheFence := by
  intro s free v stored refused starting open_ fits
  let u := taken 0x02#8 s
  have sets : exec .setFence s = .next (underLock setFence u) := congrArg _ (takeCommand_idle free _ _)
  have reads : exec .readLimits s
      = .next (outsideGeometryFault (fun s => completeWith .done (limitsData s) s) (taken 0x01#8 s)) :=
    congrArg _ (takeCommand_idle free _ _)
  have opened (isOpen : open_) : exec .setFence s = .next (setFence u) :=
    sets.trans (congrArg _ (underLock_taken_open isOpen.1 isOpen.2 ..))
  refine ⟨fun early => ?_, fun service r refusal => ?_, fun isOpen bad => ?_, fun isOpen fit form fault => ?_,
    fun isOpen fit form => ?_, fun isOpen fit form sound => ?_, fun fault => ?_, fun other => ?_⟩
  · exact refused_of_runs (sets.trans (congrArg _ (underLock_of_starting (s := u) early _)))
  · exact refused_of_runs (sets.trans (congrArg _ (underLock_taken_refused service refusal ..)))
  · exact refused_of_runs ((opened isOpen).trans (congrArg _ (setFence_bad (s := u) bad)))
  · refine refused_of_runs ((opened isOpen).trans (congrArg _ ?_))
    exact (setFence_stored (s := u) fit form).trans (if_pos fault)
  · refine ⟨_, (opened isOpen).trans (congrArg _ (setFence_volatile (s := u) fit form)), ?_, ⟨rfl, rfl⟩, rfl⟩
    constructor <;> simp [u, taken]
  · refine (opened isOpen).trans (congrArg _ ((setFence_stored (s := u) fit form).trans (if_neg ?_)))
    exact Bool.eq_false_iff.mp sound
  · exact refused_of_runs (reads.trans (congrArg _ (outsideGeometryFault_fault (s := taken 0x01#8 s) fault _)))
  · intro counts
    exact answered_of_runs (reads.trans (congrArg _ (outsideGeometryFault_other (s := taken 0x01#8 s) other _)))

end Sys2Proof.Machine
end

section
namespace Sys2Proof.Machine

/-! ### The lock commands (R31 to R34) -/

/-- A command that writes the fence's registers and the pins, and completes (R31 to R33, R173). -/
theorem lockEnds_of_runs {s : State} {c : Instr} {code : BitVec 8} {r : ResultCode} {fence : FenceLock} {pins : Pins}
    (runs : exec c s = .next (complete r { taken code s with fence := fence, pins := pins })) :
    ∃ t, exec c s = .next t ∧ Keeps [.mgmt, .events, .fence, .pins] s t ∧ Completed code r [] s t ∧ t.fence = fence
      ∧ t.pins = pins := by
  refine ⟨_, runs, ?_, ⟨rfl, rfl⟩, rfl, rfl⟩
  constructor <;> simp [taken]

section
variable {s : State}

theorem lockNotReady_iff :
    lockNotReady s = true ↔
      (s.metaCtl.phase = .geometryFault ∨ s.metaCtl.phase = .loading)
        ∨ (flagParam s = true ∧ (s.metaCtl.phase = .unformatted ∨ s.metaCtl.phase = .formatting)) := by
  unfold lockNotReady
  cases s.metaCtl.phase <;> simp

theorem storeLockAtStart_plain (value : Bool) (plain : flagParam s = false) :
    storeLockAtStart value s = complete .done s := if_pos (by simp [plain])

theorem storeLockAtStart_also (value : Bool) (also : flagParam s = true) :
    storeLockAtStart value s =
      if s.remap.fault then complete .metadataFault s
      else storeHeader { s with fence := { s.fence with lockAtStart := value } } := if_neg (by simp [also])

theorem fenceLock_barred (barred : lockNotReady s = true) : fenceLock s = complete .notReady s := if_pos barred

theorem fenceUnlock_barred (barred : lockNotReady s = true) : fenceUnlock s = complete .notReady s := if_pos barred

theorem fenceLock_frozen (ready : ¬lockNotReady s = true) (frozen : s.fence.lock = .frozen) :
    fenceLock s = complete .refusedFrozen s := by
  rw [fenceLock, if_neg ready, frozen]

/-- The fence's registers as FENCE_LOCK leaves them: an OPEN map is locked (R31). -/
def FenceLock.locked (f : FenceLock) : FenceLock := { f with lock := if f.lock = .unlocked then .locked else f.lock }

theorem fenceLock_thawed (ready : ¬lockNotReady s = true) (thawed : s.fence.lock ≠ .frozen) :
    fenceLock s = storeLockAtStart true { s with fence := s.fence.locked } := by
  have kept (other : s.fence.lock ≠ .unlocked) : ({ s with fence := s.fence.locked } : State) = s := by
    rw [FenceLock.locked, if_neg other]
  rw [fenceLock, if_neg ready]
  split
  next lock => exact absurd lock thawed
  next lock => rw [FenceLock.locked, if_pos lock, setLock]
  next lock => rw [kept (by simp [lock])]
  next lock => rw [kept (by simp [lock])]

theorem fenceUnlock_frozen (ready : ¬lockNotReady s = true) (frozen : s.fence.lock = .frozen) :
    fenceUnlock s = complete .refusedFrozen s := by
  rw [fenceUnlock, if_neg ready, frozen]

theorem fenceUnlock_expired (ready : ¬lockNotReady s = true) (expired : s.fence.lock = .expired) :
    fenceUnlock s = complete .refusedExpired s := by
  rw [fenceUnlock, if_neg ready, expired]

theorem fenceUnlock_counted (ready : ¬lockNotReady s = true) (locked : s.fence.lock = .locked)
    (pin : s.pins.maintEn = false) : fenceUnlock s = countRefusal s := by
  rw [fenceUnlock, if_neg ready, locked]
  exact if_neg (Bool.eq_false_iff.mp pin)

/-- The fence's registers as FENCE_UNLOCK leaves them: a LOCKED map is OPEN, with no refusal counted (R32). -/
def FenceLock.opened (f : FenceLock) : FenceLock :=
  { f with lock := .unlocked, refusals := if f.lock = .locked then 0 else f.refusals }

theorem fenceUnlock_opened (ready : ¬lockNotReady s = true)
    (opens : (s.fence.lock = .locked ∧ s.pins.maintEn = true) ∨ s.fence.lock = .unlocked) :
    fenceUnlock s = storeLockAtStart false { s with fence := s.fence.opened } := by
  rw [fenceUnlock, if_neg ready]
  obtain ⟨locked, pin⟩ | unlocked := opens
  · rw [locked, FenceLock.opened, if_pos locked]
    exact if_pos pin
  · have kept : s.fence.opened = s.fence := by
      rw [FenceLock.opened, if_neg (by simp [unlocked]), ← unlocked]
    rw [unlocked, kept]

theorem countRefusal_below (below : s.fence.refusals < 4) :
    countRefusal s = complete .refusedLocked { s with fence := { s.fence with refusals := s.fence.refusals + 1 } } := by
  have few : ¬Config.unlockLimit ≤ s.fence.refusals + 1 := Nat.not_le_of_lt (Nat.succ_lt_succ below)
  rw [countRefusal]
  dsimp only
  rw [if_neg few]

theorem countRefusal_fifth (four : s.fence.refusals = 4) :
    countRefusal s =
      complete .refusedLocked
        (post .lockExpired { s with fence := { s.fence with refusals := 5, lock := .expired } }) := by
  rw [countRefusal]
  dsimp only
  rw [four, if_pos (by decide)]
  rfl

theorem fenceFreeze_early (early : s.metaCtl.phase = .geometryFault ∨ s.metaCtl.phase = .loading) :
    fenceFreeze s = complete .notReady s := by
  unfold fenceFreeze
  obtain fault | loading := early
  · rw [fault]
  · rw [loading]

theorem fenceFreeze_late (late : ¬(s.metaCtl.phase = .geometryFault ∨ s.metaCtl.phase = .loading)) :
    fenceFreeze s = complete .done (setLock .frozen s) := by
  unfold fenceFreeze
  split
  next fault => exact absurd (.inl fault) late
  next loading => exact absurd (.inr loading) late
  next => rfl

end

/-- Settles O48: the three lock commands by lock state. -/
theorem lockCommandsFollowTheLockState : Obligations.LockCommandsFollowTheLockState := by
  intro s free also early barred sampled ends program locked
  let u := taken 0x03#8 s
  let lockedAt : State := { u with fence := s.fence.locked }
  let w (m : Bool) : State := { taken 0x04#8 s with pins := sampled m }
  have locks : exec .fenceLock s = .next (fenceLock u) := congrArg _ (takeCommand_idle free _ _)
  have unlocks (m : Bool) : exec (.fenceUnlock m) s = .next (fenceUnlock (w m)) :=
    congrArg _ (takeCommand_idle free _ _)
  have freezes : exec .fenceFreeze s = .next (fenceFreeze (taken 0x05#8 s)) := congrArg _ (takeCommand_idle free _ _)
  have judged : lockNotReady u = true ↔ barred := lockNotReady_iff
  have judgedAt (m : Bool) : lockNotReady (w m) = true ↔ barred := lockNotReady_iff
  refine ⟨fun bars => ⟨?_, fun m => ?_⟩, fun ready frozen => ⟨?_, fun m => ?_⟩,
    fun ready thawed => ⟨fun plain => ?_, fun flag fault => ?_, fun flag sound => ?_⟩, fun ready expired m => ?_,
    fun ready isLocked below => ?_, fun ready isLocked four => ?_, fun m ready opens => ?_, fun first => ?_,
    fun late => ?_⟩
  · exact lockEnds_of_runs (locks.trans (congrArg _ (fenceLock_barred (judged.mpr bars))))
  · exact lockEnds_of_runs ((unlocks m).trans (congrArg _ (fenceUnlock_barred ((judgedAt m).mpr bars))))
  · exact lockEnds_of_runs (locks.trans (congrArg _ (fenceLock_frozen (mt judged.mp ready) frozen)))
  · exact lockEnds_of_runs ((unlocks m).trans (congrArg _ (fenceUnlock_frozen (mt (judgedAt m).mp ready) frozen)))
  · refine lockEnds_of_runs (locks.trans (congrArg _ ((fenceLock_thawed (mt judged.mp ready) thawed).trans ?_)))
    exact storeLockAtStart_plain (s := lockedAt) true plain
  · refine lockEnds_of_runs (locks.trans (congrArg _ ((fenceLock_thawed (mt judged.mp ready) thawed).trans ?_)))
    exact (storeLockAtStart_also (s := lockedAt) true flag).trans (if_pos fault)
  · refine locks.trans (congrArg _ ((fenceLock_thawed (mt judged.mp ready) thawed).trans ?_))
    exact (storeLockAtStart_also (s := lockedAt) true flag).trans (if_neg (Bool.eq_false_iff.mp sound))
  · exact lockEnds_of_runs ((unlocks m).trans (congrArg _ (fenceUnlock_expired (mt (judgedAt m).mp ready) expired)))
  · have counted := fenceUnlock_counted (mt (judgedAt false).mp ready) isLocked rfl
    exact lockEnds_of_runs
      ((unlocks false).trans (congrArg _ (counted.trans (countRefusal_below (s := w false) below))))
  · have counted := fenceUnlock_counted (mt (judgedAt false).mp ready) isLocked rfl
    refine ⟨_, (unlocks false).trans (congrArg _ (counted.trans (countRefusal_fifth (s := w false) four))), ?_, rfl,
      rfl, rfl, rfl⟩
    constructor <;> simp [w, taken]
  · intro opened
    let openedAt : State := { w m with fence := s.fence.opened }
    have result := fenceUnlock_opened (s := w m) (mt (judgedAt m).mp ready) opens
    refine ⟨fun plain => ?_, fun flag fault => ?_, fun flag sound => ?_⟩
    · refine lockEnds_of_runs ((unlocks m).trans (congrArg _ (result.trans ?_)))
      exact storeLockAtStart_plain (s := openedAt) false plain
    · refine lockEnds_of_runs ((unlocks m).trans (congrArg _ (result.trans ?_)))
      exact (storeLockAtStart_also (s := openedAt) false flag).trans (if_pos fault)
    · refine (unlocks m).trans (congrArg _ (result.trans ?_))
      exact (storeLockAtStart_also (s := openedAt) false flag).trans (if_neg (Bool.eq_false_iff.mp sound))
  · exact lockEnds_of_runs (freezes.trans (congrArg _ (fenceFreeze_early (s := taken 0x05#8 s) first)))
  · exact lockEnds_of_runs (freezes.trans (congrArg _ (fenceFreeze_late (s := taken 0x05#8 s) late)))

end Sys2Proof.Machine
end

section
namespace Sys2Proof.Machine

/-! ### LOAD_REGION and SAVE_SETTINGS (R45, R49) -/

section
variable {s : State}

theorem regionFormed_iff (u : Nat) (r : RegionEntry) :
    regionFormed u r = true ↔ r.first ≤ r.last ∧ r.last < u ∧ r.cls ≤ 3 := decide_eq_true_iff

theorem loadRegion_bad (bad : ¬(paramNat s 0 ≤ 15 ∧ regionFormed s.fence.uNative (regionParam s) = true)) :
    loadRegion s = complete .badParameter s := by
  refine if_pos ?_
  rw [not_and_or, not_le, Bool.not_eq_true] at bad
  exact bad.imp_right fun unformed => by simp [unformed]

theorem loadRegion_formed (formed : paramNat s 0 ≤ 15 ∧ regionFormed s.fence.uNative (regionParam s) = true) :
    loadRegion s =
      complete .done
        { s with tables := { s.tables with regions := s.tables.regions.set (paramNat s 0) (regionParam s) } } := by
  obtain ⟨within, formed⟩ := formed
  refine if_neg ?_
  simp [formed, within]

end

/-- Settles O50: the two commands in the order of their tests. -/
theorem loadRegionAndSaveSettings : Obligations.LoadRegionAndSaveSettings := by
  intro s free size i w r formed refused starting open_
  let u := taken 0x06#8 s
  let v := taken 0x08#8 s
  have loads : exec .loadRegion s = .next (underLock loadRegion u) := congrArg _ (takeCommand_idle free _ _)
  have saves : exec .saveSettings s = .next (underLock saveSettings v) := congrArg _ (takeCommand_idle free _ _)
  have loadsOpen (isOpen : open_) : exec .loadRegion s = .next (loadRegion u) :=
    loads.trans (congrArg _ (underLock_taken_open isOpen.1 isOpen.2 ..))
  have savesOpen (isOpen : open_) : exec .saveSettings s = .next (saveSettings v) :=
    saves.trans (congrArg _ (underLock_taken_open isOpen.1 isOpen.2 ..))
  have judged : (paramNat u 0 ≤ 15 ∧ regionFormed u.fence.uNative (regionParam u) = true) ↔ formed :=
    and_congr_right' (regionFormed_iff ..)
  refine ⟨fun early => ⟨?_, ?_⟩, fun service r refusal => ⟨?_, ?_⟩, fun isOpen bad => ?_, fun isOpen good => ?_,
    fun isOpen fault => ?_, fun isOpen sound => ?_⟩
  · exact refused_of_runs (loads.trans (congrArg _ (underLock_of_starting (s := u) early _)))
  · exact refused_of_runs (saves.trans (congrArg _ (underLock_of_starting (s := v) early _)))
  · exact refused_of_runs (loads.trans (congrArg _ (underLock_taken_refused service refusal ..)))
  · exact refused_of_runs (saves.trans (congrArg _ (underLock_taken_refused service refusal ..)))
  · exact refused_of_runs ((loadsOpen isOpen).trans (congrArg _ (loadRegion_bad (mt judged.mp bad))))
  · have here : i < s.tables.regions.length := by
      obtain ⟨within, -⟩ := good
      omega
    refine ⟨_, (loadsOpen isOpen).trans (congrArg _ (loadRegion_formed (judged.mpr good))), ?_, ⟨rfl, rfl⟩, rfl,
      List.getElem?_set_self here, fun n other => List.getElem?_set_ne (Ne.symm other)⟩
    constructor <;> simp [u, taken]
  · exact refused_of_runs ((savesOpen isOpen).trans (congrArg _ (if_pos fault)))
  · exact (savesOpen isOpen).trans (congrArg _ (if_neg (Bool.eq_false_iff.mp sound)))

end Sys2Proof.Machine
end

section
namespace Sys2Proof.Machine

/-! ### The fields of the watch entries (R175) -/

theorem kindsOf_eq {n : Nat} (below : n < 4) :
    kindsOf n = if 1 ≤ n then some (if n = 1 then .read else if n = 2 then .write else .both) else none := by
  match n with
  | 0 => rfl
  | 1 => rfl
  | 2 => rfl
  | 3 => rfl

theorem portsOf_eq {n : Nat} (below : n < 4) :
    portsOf n = if 1 ≤ n then some (if n = 1 then .a else if n = 2 then .b else .both) else none := by
  match n with
  | 0 => rfl
  | 1 => rfl
  | 2 => rfl
  | 3 => rfl

theorem actionOf_eq (n : Nat) : actionOf n = if n ≤ 1 then some (if n = 0 then .note else .refuse) else none := by
  match n with
  | 0 => rfl
  | 1 => rfl
  | n + 2 => simp [actionOf]

theorem accessOf_eq (n : Nat) : accessOf n = if n ≤ 1 then some (if n = 0 then .read else .write) else none := by
  match n with
  | 0 => rfl
  | 1 => rfl
  | n + 2 => simp [accessOf]

/-- A tag is the low byte of its parameter (R175). -/
theorem setWidth_param (s : State) (n : Nat) : (param s n).setWidth 8 = BitVec.ofNat 8 (paramNat s n) :=
  (BitVec.ofNat_toNat ..).symm

/-- The fields of LOAD_RANGE in PARAM1 to PARAM4 are in their ranges (R148, R175). -/
def RangeFits (s : State) : Prop :=
  paramNat s 1 ≤ paramNat s 2 ∧ paramNat s 2 < 64 * s.fence.uNative ∧ 1 ≤ field (param s 3) 4 2
    ∧ 1 ≤ field (param s 3) 8 2 ∧ field (param s 3) 12 2 ≤ 1 ∧ paramNat s 4 ≤ 255

/-- The range watch entry that the parameters name; `rangeParam_named` ties it to the decoder (R148, R175). -/
def rangeNamed (s : State) : RangeWatch :=
  let w := param s 3
  let kinds := field w 4 2
  let ports := field w 8 2
  { enabled := w.getLsbD 0, first := paramNat s 1, last := paramNat s 2
    kinds := if kinds = 1 then .read else if kinds = 2 then .write else .both
    ports := if ports = 1 then .a else if ports = 2 then .b else .both
    action := if field w 12 2 = 0 then .note else .refuse, tag := BitVec.ofNat 8 (paramNat s 4), hit := false }

section
variable {s : State}

theorem rangeParam_named (fits : RangeFits s) : rangeParam s = some (rangeNamed s) := by
  obtain ⟨ordered, within, kinds, ports, action, tag⟩ := fits
  have bounds : paramNat s 1 ≤ paramNat s 2 ∧ paramNat s 2 < 64 * s.fence.uNative ∧ paramNat s 4 ≤ 255 :=
    ⟨ordered, within, tag⟩
  rw [rangeParam, kindsOf_eq (BitVec.isLt _), portsOf_eq (BitVec.isLt _), actionOf_eq, if_pos kinds, if_pos ports,
    if_pos action]
  dsimp only
  rw [if_pos bounds, rangeNamed, setWidth_param]

theorem rangeParam_unfit (unfit : ¬RangeFits s) : rangeParam s = none := by
  rw [rangeParam, kindsOf_eq (BitVec.isLt _), portsOf_eq (BitVec.isLt _), actionOf_eq]
  split
  next k p a kinds ports action =>
    have kindly : 1 ≤ field (param s 3) 4 2 := by
      by_contra zero
      simp [zero] at kinds
    have ported : 1 ≤ field (param s 3) 8 2 := by
      by_contra zero
      simp [zero] at ports
    have acted : field (param s 3) 12 2 ≤ 1 := by
      by_contra above
      simp [above] at action
    exact if_neg fun ⟨ordered, within, tag⟩ => unfit ⟨ordered, within, kindly, ported, acted, tag⟩
  next => rfl

theorem loadRange_fits (index : paramNat s 0 ≤ 7) (fits : RangeFits s) :
    loadRange s =
      complete .done
        { s with watch := { s.watch with ranges := s.watch.ranges.set (paramNat s 0) (rangeNamed s) } } := by
  rw [loadRange, rangeParam_named fits]
  exact if_neg (Nat.not_lt.mpr index)

theorem loadRange_unfit (unfit : ¬(paramNat s 0 ≤ 7 ∧ RangeFits s)) : loadRange s = complete .badParameter s := by
  by_cases fits : RangeFits s
  · rw [loadRange, rangeParam_named fits]
    exact if_pos (Nat.not_le.mp fun index => unfit ⟨index, fits⟩)
  · rw [loadRange, rangeParam_unfit fits]

/-- The fields of LOAD_TARGET in PARAM1 to PARAM3 are in their ranges (R152, R175). -/
def TargetFits (s : State) : Prop := paramNat s 1 < 64 * s.fence.uNative ∧ paramNat s 2 ≤ 1 ∧ paramNat s 3 ≤ 255

/-- The target that the parameters name; `targetParam_named` ties it to the decoder (R152, R175). -/
def targetNamed (s : State) : Target :=
  { addr := paramNat s 1, kind := if paramNat s 2 = 0 then .read else .write, tag := BitVec.ofNat 8 (paramNat s 3) }

theorem targetParam_named (fits : TargetFits s) : targetParam s = some (targetNamed s) := by
  obtain ⟨within, kind, tag⟩ := fits
  have bounds : paramNat s 1 < 64 * s.fence.uNative ∧ paramNat s 3 ≤ 255 := ⟨within, tag⟩
  rw [targetParam, accessOf_eq, if_pos kind]
  dsimp only
  rw [if_pos bounds, targetNamed, setWidth_param]

theorem targetParam_unfit (unfit : ¬TargetFits s) : targetParam s = none := by
  rw [targetParam, accessOf_eq]
  by_cases kind : paramNat s 2 ≤ 1
  · rw [if_pos kind]
    exact if_neg fun ⟨within, tag⟩ => unfit ⟨within, kind, tag⟩
  · rw [if_neg kind]

theorem loadTarget_fits (index : paramNat s 0 ≤ 15) (fits : TargetFits s) :
    loadTarget s =
      complete .done
        { s with watch := { s.watch with targets := s.watch.targets.set (paramNat s 0) (targetNamed s) } } := by
  rw [loadTarget, targetParam_named fits]
  exact if_neg (Nat.not_lt.mpr index)

theorem loadTarget_unfit (unfit : ¬(paramNat s 0 ≤ 15 ∧ TargetFits s)) : loadTarget s = complete .badParameter s := by
  by_cases fits : TargetFits s
  · rw [loadTarget, targetParam_named fits]
    exact if_pos (Nat.not_le.mp fun index => unfit ⟨index, fits⟩)
  · rw [loadTarget, targetParam_unfit fits]

/-- A command that writes the watches, and completes (R148, R152, R153, R173). -/
theorem watchEnds_of_runs {c : Instr} {code : BitVec 8} {r : ResultCode} {watch : WatchUnit}
    (runs : exec c s = .next (complete r { taken code s with watch := watch })) :
    ∃ t, exec c s = .next t ∧ Keeps [.mgmt, .events, .watch] s t ∧ Completed code r [] s t ∧ t.watch = watch := by
  refine ⟨_, runs, ?_, ⟨rfl, rfl⟩, rfl⟩
  constructor <;> simp [taken]

end

/-- Settles O51: the five watch commands. -/
theorem watchCommandsLoadAndArm : Obligations.WatchCommandsLoadAndArm := by
  intro s free rangesSize targetsSize v w kinds ports action range target ends fault
  have ranges : exec .loadRange s = .next (outsideGeometryFault loadRange (taken 0x09#8 s)) :=
    congrArg _ (takeCommand_idle free _ _)
  have targets : exec .loadTarget s = .next (outsideGeometryFault loadTarget (taken 0x0A#8 s)) :=
    congrArg _ (takeCommand_idle free _ _)
  have sets : exec .sequenceSet s = .next (outsideGeometryFault sequenceSet (taken 0x0B#8 s)) :=
    congrArg _ (takeCommand_idle free _ _)
  have arms : exec .sequenceArm s = .next (outsideGeometryFault sequenceArm (taken 0x0C#8 s)) :=
    congrArg _ (takeCommand_idle free _ _)
  have disarms : exec .sequenceDisarm s = .next (outsideGeometryFault sequenceDisarm (taken 0x0D#8 s)) :=
    congrArg _ (takeCommand_idle free _ _)
  refine ⟨fun early => ?_, fun other => ?_⟩
  · have barred (code : BitVec 8) (carry : State → State) :
        outsideGeometryFault carry (taken code s) = complete .notReady (taken code s) :=
      outsideGeometryFault_fault (s := taken code s) early carry
    exact ⟨watchEnds_of_runs (ranges.trans (congrArg _ (barred ..))),
      watchEnds_of_runs (targets.trans (congrArg _ (barred ..))),
      watchEnds_of_runs (sets.trans (congrArg _ (barred ..))), watchEnds_of_runs (arms.trans (congrArg _ (barred ..))),
      watchEnds_of_runs (disarms.trans (congrArg _ (barred ..)))⟩
  have carried (code : BitVec 8) (carry : State → State) :
      outsideGeometryFault carry (taken code s) = carry (taken code s) :=
    outsideGeometryFault_other (s := taken code s) other carry
  refine ⟨fun bad => ?_, fun good => ?_, fun bad => ?_, fun good => ?_, fun bad => ?_, fun low high form => ?_, ?_, ?_⟩
  · exact watchEnds_of_runs (ranges.trans (congrArg _ ((carried ..).trans (loadRange_unfit bad))))
  · obtain ⟨index, fits⟩ := good
    exact watchEnds_of_runs (ranges.trans (congrArg _ ((carried ..).trans (loadRange_fits index fits))))
  · exact watchEnds_of_runs (targets.trans (congrArg _ ((carried ..).trans (loadTarget_unfit bad))))
  · obtain ⟨index, fits⟩ := good
    exact watchEnds_of_runs (targets.trans (congrArg _ ((carried ..).trans (loadTarget_fits index fits))))
  · exact watchEnds_of_runs (sets.trans (congrArg _ ((carried ..).trans (if_pos bad))))
  · refine watchEnds_of_runs (sets.trans (congrArg _ ((carried ..).trans (if_neg ?_))))
    exact fun bad : v 0 = 0 ∨ 16 < v 0 ∨ 1 < v 1 => by omega
  · exact watchEnds_of_runs (arms.trans (congrArg _ (carried ..)))
  · exact watchEnds_of_runs (disarms.trans (congrArg _ (carried ..)))

end Sys2Proof.Machine
end

section
namespace Sys2Proof.Machine

/-! ### Codes while busy (R173) -/

section
variable {s : State}

theorem takeCommand_busy (out : s.pins.porst = false) (busy : s.mgmt.busy.isSome = true) (code : BitVec 8)
    (carry : State → State) : takeCommand code carry s = post .commandOverrun s := by
  rw [takeCommand, if_neg (Bool.eq_false_iff.mp out), if_pos busy]

theorem exec_commandWriteWhileBusy {code : BitVec 8} (out : s.pins.porst = false) (busy : s.mgmt.busy.isSome = true)
    (other : code ≠ 0x19#8) : exec (.commandWriteWhileBusy code) s = .next (post .commandOverrun s) :=
  onPart_leads out (if_pos ⟨busy, other⟩)

/-- A row that carries a command code, written while busy (R173). -/
theorem exec_overrun {c : Instr} {code : BitVec 8} (out : s.pins.porst = false) (busy : s.mgmt.busy.isSome = true)
    (formed : c.wellFormed = true) (carries : c.commandCode = some code) (other : code ≠ 0x19#8) :
    exec c s = .next (post .commandOverrun s) := by
  have overrun := takeCommand_busy out busy
  cases c with
  | cancel =>
    cases carries
    exact absurd rfl other
  | unknownCommand k =>
    have unnamed : ¬namesCommand k = true := by simpa [Instr.wellFormed] using formed
    exact congrArg Host.Outcome.next ((if_neg unnamed).trans (overrun ..))
  | commandWriteWhileBusy k =>
    cases carries
    exact exec_commandWriteWhileBusy out busy other
  | readLimits | setFence | fenceLock | fenceUnlock | fenceFreeze | loadRegion | loadClass | saveSettings | loadRange
  | loadTarget | sequenceSet | sequenceArm | sequenceDisarm | drainAll | setReserve | retireLine | readRemap | readSlot
  | readCandidate | patrolStart | patrolStop | patrolStatus | setGrantLimit | formatArray =>
    exact congrArg Host.Outcome.next (overrun ..)
  | _ => cases carries

/-! ### DRAIN_ALL, SET_RESERVE and CANCEL (R69, R70, R76, R174) -/

theorem fitsReserve_iff (n : Nat) :
    fitsReserve s n = true ↔ s.buffer.entries.length ≤ 32 - n ∧ s.health.jobs.length ≤ n := by
  rw [fitsReserve, Bool.and_eq_true, decide_eq_true_iff, decide_eq_true_iff]
  rfl

theorem isReserve_iff (n : Nat) : isReserve n = true ↔ n = 0 ∨ n = 1 ∨ n = 2 ∨ n = 4 := by
  simp [isReserve, or_assoc]

theorem targetsGone_iff : targetsGone s = true ↔ ∀ e ∈ s.buffer.entries, e.target = false := by
  simp [targetsGone]

theorem setReserve_bad (bad : ¬isReserve (paramNat s 0) = true) : setReserve s = complete .badParameter s :=
  if_pos (by simpa using bad)

theorem setReserve_value (value : isReserve (paramNat s 0) = true) :
    setReserve s =
      if paramNat s 0 = s.buffer.reserve ∨ fitsReserve s (paramNat s 0) then takeReserve (paramNat s 0) s
      else setBusy (.reserve (paramNat s 0)) s := if_neg (by simp [value])

theorem exec_cancel_idle (free : idle s = true) : exec .cancel s = .next (cancelIdle (taken 0x19#8 s)) := by
  have none : s.mgmt.busy = none := by
    rw [idle, Bool.and_eq_true, Option.isNone_iff_eq_none] at free
    exact free.2
  have code : exec .cancel s = .next (takeCommand 0x19#8 cancelIdle s) := by
    unfold exec execCancel
    rw [none]
  rw [code, takeCommand_idle free]
  rfl

theorem exec_cancel_busy {b : InProgress} (out : s.pins.porst = false) (busy : s.mgmt.busy = some b) :
    exec .cancel s = .next (cancelBusy b s) := by
  have code : exec .cancel s = onPart (cancelBusy b) s := by
    unfold exec execCancel
    rw [busy]
  rw [code, onPart_out out]

theorem closeDrainAll_open {n d : Nat} (busy : s.mgmt.busy = some (.drainAll n d)) :
    closeDrainAll s = if targetsGone s then endDrainAll .done n d s else s := by
  rw [closeDrainAll, busy]

theorem closeReserveWait_open {n : Nat} (busy : s.mgmt.busy = some (.reserve n)) :
    closeReserveWait s = if fitsReserve s n then takeReserve n s else s := by
  have waits : reserveWait s = some n := by rw [reserveWait, busy]
  rw [closeReserveWait, waits]

theorem drainAll_nil (none : s.buffer.entries = []) : drainAll s = endDrainAll .done 0 0 s := if_pos (by simp [none])

theorem drainAll_some (some : s.buffer.entries ≠ []) :
    drainAll s =
      setBusy (.drainAll s.buffer.entries.length 0)
        { s with buffer := { s.buffer with entries := s.buffer.entries.map fun e => { e with target := true } } } :=
  if_neg (by simp [some])

end

/-- Settles O52: the waiting commands begun, closed and cancelled, and the codes that are not taken. -/
theorem waitingCommandsCompleteOrAreCancelled : Obligations.WaitingCommandsCompleteOrAreCancelled := by
  intro s out n fit entries ends starts
  have fits (m : Nat) : fitsReserve s m = true ↔ fit m := fitsReserve_iff m
  refine ⟨fun none => ?_, fun taken lost busy => ?_, fun m busy => ?_, fun others => ?_, fun busy =>
    ⟨fun code other => exec_commandWriteWhileBusy out busy other, fun c code formed carries other =>
      exec_overrun out busy formed carries other⟩⟩
  · have free : idle s = true := by simp [idle, out, none]
    have drains : exec .drainAll s = .next (outsideGeometryFault drainAll (taken 0x0E#8 s)) :=
      congrArg _ (takeCommand_idle free _ _)
    have reserves : exec .setReserve s = .next (outsideGeometryFault setReserve (taken 0x0F#8 s)) :=
      congrArg _ (takeCommand_idle free _ _)
    have cancels := exec_cancel_idle free
    refine ⟨fun fault => ?_, fun other => ?_, fun code unnamed => ?_, ?_, ?_⟩
    · have barred (code : BitVec 8) (carry : State → State) :
          outsideGeometryFault carry (taken code s) = complete .notReady (taken code s) :=
        outsideGeometryFault_fault (s := taken code s) fault carry
      exact ⟨refused_of_runs (drains.trans (congrArg _ (barred ..))),
        refused_of_runs (reserves.trans (congrArg _ (barred ..))),
        refused_of_runs (cancels.trans (congrArg _ (barred ..)))⟩
    · have carried (code : BitVec 8) (carry : State → State) :
          outsideGeometryFault carry (taken code s) = carry (taken code s) :=
        outsideGeometryFault_other (s := taken code s) other carry
      have fitsTaken : fitsReserve (taken 0x0F#8 s) n = true ↔ fit n := fitsReserve_iff n
      refine ⟨fun empty => ?_, fun filled => ?_, fun bad => ?_, fun value fitting => ?_, fun value apart tight => ?_,
        ?_⟩
      · exact answered_of_runs (drains.trans (congrArg _ ((carried ..).trans (drainAll_nil empty))))
      · exact drains.trans (congrArg _ ((carried ..).trans (drainAll_some filled)))
      · have odd : ¬isReserve (paramNat (taken 0x0F#8 s) 0) = true := by
          rw [isReserve_iff, paramNat_taken]
          omega
        exact refused_of_runs (reserves.trans (congrArg _ ((carried ..).trans (setReserve_bad odd))))
      · have judged := setReserve_value (s := taken 0x0F#8 s) ((isReserve_iff n).mpr value)
        have now := judged.trans (if_pos (fitting.imp_right fitsTaken.mpr))
        refine ⟨_, reserves.trans (congrArg _ ((carried ..).trans now)), ?_, ⟨rfl, rfl⟩, rfl⟩
        constructor <;> simp [takeReserve, taken]
      · have judged := setReserve_value (s := taken 0x0F#8 s) ((isReserve_iff n).mpr value)
        refine reserves.trans (congrArg _ ((carried ..).trans (judged.trans (if_neg ?_))))
        exact not_or.mpr ⟨apart, mt fitsTaken.mp tight⟩
      · exact refused_of_runs (cancels.trans (congrArg _ (carried ..)))
    · have odd : ¬namesCommand code = true := by
        rw [namesCommand, decide_eq_true_iff]
        rintro ⟨low, high⟩
        obtain rfl | above := unnamed
        · simp at low
        · omega
      exact refused_of_runs (congrArg _ ((if_neg odd).trans (takeCommand_idle free _ _)))
    · exact onPart_idle (by rw [closeDrainAll, none])
    · exact onPart_idle (by rw [closeReserveWait, reserveWait, none])
  · refine ⟨fun gone => ?_, fun ⟨e, member, left⟩ => ?_, ?_⟩
    · refine ⟨_, onPart_leads out ((closeDrainAll_open busy).trans (if_pos (targetsGone_iff.mpr gone))), ?_, rfl, rfl,
        rfl⟩
      constructor <;> simp [endDrainAll]
    · refine onPart_idle ((closeDrainAll_open busy).trans (if_neg fun gone => ?_))
      simp [targetsGone_iff.mp gone e member] at left
    · refine ⟨_, exec_cancel_busy out busy, ?_, rfl, rfl, rfl⟩
      constructor <;> simp [cancelBusy, endDrainAll, clearTargets]
  · refine ⟨fun fitting => ?_, fun tight => ?_, ?_⟩
    · refine ⟨_, onPart_leads out ((closeReserveWait_open busy).trans (if_pos ((fits m).mpr fitting))), ?_, rfl, rfl,
        rfl⟩
      constructor <;> simp [takeReserve]
    · exact onPart_idle ((closeReserveWait_open busy).trans (if_neg (mt (fits m).mp tight)))
    · refine ⟨_, exec_cancel_busy out busy, ?_, rfl, rfl, rfl⟩
      constructor <;> simp [cancelBusy]
  · obtain busy | busy | ⟨rest, busy⟩ := others
    · exact exec_cancel_busy out busy
    · exact exec_cancel_busy out busy
    · exact exec_cancel_busy out busy

end Sys2Proof.Machine
end

section
namespace Sys2Proof.Machine

/-! ### RETIRE_LINE (R136) -/

section
variable {line : Nat} {s : State}

theorem retireJudged_phase (other : s.metaCtl.phase ≠ .fullReady) : retireJudged s = complete .notReady s :=
  if_pos other

theorem retireJudged_beyond (ready : s.metaCtl.phase = .fullReady) (beyond : s.fence.uNative ≤ paramNat s 0) :
    retireJudged s = complete .badParameter s := (if_neg (not_not_intro ready)).trans (if_pos beyond)

theorem retireJudged_valid (valid : s.metaCtl.phase = .fullReady ∧ paramNat s 0 < s.fence.uNative) :
    retireJudged s = retireLine (paramNat s 0) s := by
  obtain ⟨ready, within⟩ := valid
  exact (if_neg (not_not_intro ready)).trans (if_neg (Nat.not_le.mpr within))

theorem retireLine_candidate (candidate : isCandidate s line = true) : retireLine line s = retireCandidate line s :=
  if_pos candidate

/-- The cases of R136 in which nothing is left to do. -/
theorem retireLine_settled (other : isCandidate s line = false)
    (settled : noDataPresent s line = true ∨ dataState s line = .poisoned ∨ jobInFlight s line = true) :
    retireLine line s = complete .done s := by
  rw [retireLine, if_neg (by simp [other])]
  by_cases asked : noDataPresent s line = true
  · rw [if_pos asked]
  · by_cases poisoned : dataState s line = .poisoned
    · rw [if_neg asked, if_pos poisoned]
    · have running := (settled.resolve_left asked).resolve_left poisoned
      rw [if_neg asked, if_neg poisoned, if_pos running]

/-- The last cases of R136: the line takes a relocation job; `retireLine_clear` ties it to the command. -/
def retireByJob (line : Nat) (s : State) : State :=
  if jobQueued s line then complete .done (retireQueued line s)
  else if 16 ≤ s.health.queue.length then complete .queueFull s
  else
    complete .done
      { s with health := { s.health with queue := s.health.queue ++ [{ line := line, reason := .retireCommand }] } }

theorem retireLine_clear (other : isCandidate s line = false) (unasked : noDataPresent s line = false)
    (sound : dataState s line ≠ .poisoned) (resting : jobInFlight s line = false) :
    retireLine line s = retireByJob line s := by
  rw [retireByJob, retireLine, if_neg (by simp [other]), if_neg (by simp [unasked]), if_neg sound,
    if_neg (by simp [resting])]

/-- The list of the candidates without the line (R136). -/
def candidateRetired (line : Nat) (s : State) : State :=
  { s with health := { s.health with candidates := s.health.candidates.filter fun c => c.line != line } }

theorem retireCandidate_full (unasked : noDataPresent s line = false) (full : 16 ≤ s.remap.noData.length) :
    retireCandidate line s = complete .queueFull s := if_pos ⟨by simp [unasked], full⟩

theorem retireCandidate_present (asked : noDataPresent s line = true) :
    retireCandidate line s = complete .done (candidateRetired line s) := by
  have present : noDataPresent (removeCandidate line s) line = true := asked
  rw [retireCandidate, if_neg (by simp [asked]), requestNoData, if_pos present]
  rfl

theorem retireCandidate_room (unasked : noDataPresent s line = false) (room : s.remap.noData.length < 16) :
    retireCandidate line s =
      complete .done
        { candidateRetired line s with
          remap := { s.remap with noData := s.remap.noData ++ [{ line := line, origin := .retireCommand }] } } := by
  have absent : noDataPresent (removeCandidate line s) line = false := unasked
  have below : ¬16 ≤ (removeCandidate line s).remap.noData.length := Nat.not_le.mpr room
  rw [retireCandidate, if_neg fun ⟨_, full⟩ => Nat.not_le.mpr room full, requestNoData_eq _ absent, if_neg below]
  rfl

end

/-- RETIRE_LINE completes, with what it has written (R136, R173). -/
theorem retireEnds_of_runs {s : State} {r : ResultCode} {health : MediaHealth} {remap : RemapUnit}
    (runs : exec .retireLine s = .next (complete r { taken 0x10#8 s with health := health, remap := remap })) :
    ∃ t, exec .retireLine s = .next t ∧ Keeps [.mgmt, .events, .health, .remap] s t ∧ Completed 0x10#8 r [] s t
      ∧ t.health = health ∧ t.remap = remap := by
  refine ⟨_, runs, ?_, ⟨rfl, rfl⟩, rfl, rfl⟩
  constructor <;> simp [taken]

/-- Settles O53: the cases of R136 in their order. -/
theorem retireLineActsByTheFirstCase : Obligations.RetireLineActsByTheFirstCase := by
  intro s free line ends retired valid candidate clear
  let u := taken 0x10#8 s
  have runs : exec .retireLine s = .next (retireJudged u) := congrArg _ (takeCommand_idle free _ _)
  have acts (good : valid) : exec .retireLine s = .next (retireLine line u) :=
    runs.trans (congrArg _ (retireJudged_valid (s := u) good))
  have listed (case : candidate) : exec .retireLine s = .next (retireCandidate line u) := by
    obtain ⟨good, listed⟩ := case
    exact (acts good).trans (congrArg _ (retireLine_candidate (s := u) listed))
  have needs (case : clear) : exec .retireLine s = .next (retireByJob line u) := by
    obtain ⟨good, other, unasked, sound, resting⟩ := case
    exact (acts good).trans (congrArg _ (retireLine_clear (s := u) other unasked sound resting))
  refine ⟨fun other => ?_, fun ready beyond => ?_, fun case asked => ?_, fun case unasked room => ?_,
    fun case unasked full => ?_, fun good other settled => ?_, fun case queued => ?_, fun case unqueued room => ?_,
    fun case unqueued full => ?_⟩
  · exact retireEnds_of_runs (runs.trans (congrArg _ (retireJudged_phase (s := u) other)))
  · exact retireEnds_of_runs (runs.trans (congrArg _ (retireJudged_beyond (s := u) ready beyond)))
  · exact retireEnds_of_runs ((listed case).trans (congrArg _ (retireCandidate_present (s := u) asked)))
  · exact retireEnds_of_runs ((listed case).trans (congrArg _ (retireCandidate_room (s := u) unasked room)))
  · exact retireEnds_of_runs ((listed case).trans (congrArg _ (retireCandidate_full (s := u) unasked full)))
  · exact retireEnds_of_runs ((acts good).trans (congrArg _ (retireLine_settled (s := u) other settled)))
  · exact retireEnds_of_runs ((needs case).trans (congrArg _ (if_pos queued)))
  · refine retireEnds_of_runs ((needs case).trans (congrArg _ ((if_neg (Bool.eq_false_iff.mp unqueued)).trans ?_)))
    exact if_neg (Nat.not_le.mpr room)
  · refine retireEnds_of_runs ((needs case).trans (congrArg _ ((if_neg (Bool.eq_false_iff.mp unqueued)).trans ?_)))
    exact if_pos full

end Sys2Proof.Machine
end

section
namespace Sys2Proof.Machine

/-! ### Queries (R120, R121, R128, R142) -/

theorem inService_starting {s : State} (starting : s.metaCtl.phase.starting = true) (carry : State → State) :
    inService carry s = complete .notReady s := if_pos starting

theorem inService_serving {s : State} (service : s.metaCtl.phase.starting = false) (carry : State → State) :
    inService carry s = carry s := if_neg (Bool.eq_false_iff.mp service)

/-- The fields of a remap entry's words, by data state and origin (R172, R176). -/
theorem entryData_eq (line : Nat) (e : RemapEntry) :
    entryData line e =
      (let state := match e.data with | .intact => 0#32 | .poisoned => 1#32 | .partialOf _ => 2#32
       let origin : Word :=
         match e.origin with
         | .programFail => 0#32 | .relocated => 1#32 | .candidateFail => 2#32 | .candidateOverflow => 3#32
         | .mergeFail => 4#32 | .retireCommand => 5#32
       let valid := match e.data with | .partialOf m => m | _ => Mask.empty
       [word e.slot, word line, state ||| (origin <<< 8) ||| (e.generation.setWidth 32 <<< 16),
         (valid.extractLsb' 32 32), (valid.extractLsb' 0 32), 1#32]) := by
  obtain ⟨slot, data, origin, generation⟩ := e
  have upper (m : Mask) : (m >>> 32).setWidth 32 = m.extractLsb' 32 32 := by
    ext i
    simp
  have lower (m : Mask) : m.setWidth 32 = m.extractLsb' 0 32 := by
    ext i
    simp
  have masks (d : DataState) : validMaskOf d = match d with | .partialOf m => m | _ => Mask.empty := by cases d <;> rfl
  have states (d : DataState) : word (dataStateCode d)
      = match d with | .intact => 0#32 | .poisoned => 1#32 | .partialOf _ => 2#32 := by cases d <;> rfl
  have origins (o : Origin) : word (originCode o) = match o with
      | .programFail => 0#32 | .relocated => 1#32 | .candidateFail => 2#32 | .candidateOverflow => 3#32
      | .mergeFail => 4#32 | .retireCommand => 5#32 := by cases o <;> rfl
  rw [entryData]
  dsimp only
  rw [states, origins, upper, lower, masks]
  rfl

section
variable {s : State}

theorem readRemap_beyond (beyond : s.fence.uNative ≤ paramNat s 0) : readRemap s = complete .badParameter s :=
  if_pos beyond

theorem readRemap_none (within : paramNat s 0 < s.fence.uNative) (none : remapEntry s (paramNat s 0) = none) :
    readRemap s = complete .notFound s := by
  rw [readRemap]
  rw [if_neg (Nat.not_le.mpr within), none]

theorem readRemap_some {e : RemapEntry} (within : paramNat s 0 < s.fence.uNative)
    (here : remapEntry s (paramNat s 0) = some e) :
    readRemap s = completeWith .done (entryData (paramNat s 0) e) s := by
  rw [readRemap]
  rw [if_neg (Nat.not_le.mpr within), here]

theorem readSlot_beyond (beyond : 4095 < paramNat s 0) : readSlot s = complete .badParameter s := if_pos beyond

theorem readSlot_within (within : paramNat s 0 ≤ 4095) :
    readSlot s = completeWith .done (slotData s (paramNat s 0)) s := if_neg (Nat.not_lt.mpr within)

theorem slotData_free {slot : Nat} (free : poolState s slot = .free) :
    slotData s slot = [word slot, 0#32, 0#32, 0#32, 0#32, 0#32] := by
  rw [slotData, free]
  rfl

theorem slotData_dead {slot : Nat} (dead : poolState s slot = .dead) :
    slotData s slot = [word slot, 0#32, 0#32, 0#32, 0#32, 2#32] := by
  rw [slotData, dead]
  rfl

theorem slotData_inUse {slot line : Nat} {e : RemapEntry} (used : poolState s slot = .inUse)
    (here : entryOfSlot s slot = some (line, e)) : slotData s slot = entryData line e := by
  rw [slotData, used, here]

theorem readCandidate_some {c : Candidate} (here : s.health.candidates[paramNat s 0]? = some c) :
    readCandidate s =
      completeWith .done [word c.line, word c.source.code, word s.health.candidates.length] s := by
  rw [readCandidate, here]

theorem readCandidate_none (beyond : s.health.candidates.length ≤ paramNat s 0) :
    readCandidate s = completeWith .notFound [0#32, 0#32, word s.health.candidates.length] s := by
  rw [readCandidate, List.getElem?_eq_none beyond]

theorem patrolStatus_eq (s : State) :
    patrolStatus s =
      (let p := s.health.patrol
       completeWith .done
         [match p.mode with | .stopped => 0#32 | .singlePass => 1#32 | .continuous => 2#32, word p.cursor,
           word p.passes, word p.interval, word p.since, if p.outstanding.isSome then 1#32 else 0#32]
         s) := by
  have mode (m : PatrolMode) : word m.code
      = match m with | .stopped => 0#32 | .singlePass => 1#32 | .continuous => 2#32 := by cases m <;> rfl
  rw [patrolStatus, patrolData, mode]
  rfl

/-! ### PATROL_START and SET_GRANT_LIMIT (R88, R137) -/

theorem patrolModeOf_eq (n : Nat) :
    patrolModeOf n = if n = 1 then some .singlePass else if n = 2 then some .continuous else none := by
  match n with
  | 0 => rfl
  | 1 => rfl
  | 2 => rfl
  | n + 3 => simp [patrolModeOf]

theorem patrolStart_bad (bad : paramNat s 0 = 0 ∨ 2 < paramNat s 0 ∨ paramNat s 1 = 0 ∨ 65535 < paramNat s 1) :
    patrolStart s = complete .badParameter s := by
  rw [patrolStart, patrolModeOf_eq]
  split
  next => rfl
  next m mode =>
    refine if_pos ?_
    by_contra fits
    have other : ¬paramNat s 0 = 1 ∧ ¬paramNat s 0 = 2 := by omega
    obtain ⟨single, continuous⟩ := other
    rw [if_neg single, if_neg continuous] at mode
    cases mode

theorem patrolStart_good (mode : paramNat s 0 = 1 ∨ paramNat s 0 = 2) (low : 1 ≤ paramNat s 1)
    (high : paramNat s 1 ≤ 65535) :
    patrolStart s =
      complete .done
        (setPatrol
          (fun p =>
            { p with
              mode := if paramNat s 0 = 1 then .singlePass else .continuous, interval := paramNat s 1, cursor := 0
              since := 0, ticks := 0 })
          s) := by
  have named : patrolModeOf (paramNat s 0) = some (if paramNat s 0 = 1 then .singlePass else .continuous) := by
    rw [patrolModeOf_eq]
    obtain one | two := mode
    · rw [if_pos one, if_pos one]
    · rw [if_neg (by omega), if_pos two, if_neg (by omega)]
  rw [patrolStart, named]
  exact if_neg (by omega)

theorem setGrantLimit_bad (bad : 65535 < paramNat s 0) : setGrantLimit s = complete .badParameter s := if_pos bad

/-- The grant wait limit in force, and the command complete (R88). -/
def limitPlaced (s : State) : State := complete .done { s with link := { s.link with limit := paramNat s 0 } }

theorem setGrantLimit_good (good : paramNat s 0 ≤ 65535) :
    setGrantLimit s =
      if grantExpired (limitPlaced s) then settle (expire (limitPlaced s)) else limitPlaced s :=
  if_neg (Nat.not_lt.mpr good)

/-- A command that sets the patrol, and completes (R137, R141, R173). -/
theorem patrolSet_of_runs {c : Instr} {code : BitVec 8} {f : Patrol → Patrol}
    (runs : exec c s = .next (complete .done (setPatrol f (taken code s)))) :
    ∃ t, exec c s = .next t ∧ Keeps [.mgmt, .events, .health] s t ∧ Completed code .done [] s t
      ∧ t.health = { s.health with patrol := f s.health.patrol } := by
  refine ⟨_, runs, ?_, ⟨rfl, rfl⟩, rfl⟩
  constructor <;> simp [taken]

end

/-- Settles O54: what the four queries tell, and what the commands of the patrol and of the grant wait set. -/
theorem queriesReportAndPatrolCommandsSet : Obligations.QueriesReportAndPatrolCommandsSet := by
  intro s free v p tells sets starting fault entry
  have remaps : exec .readRemap s = .next (inService readRemap (taken 0x11#8 s)) :=
    congrArg _ (takeCommand_idle free _ _)
  have slots : exec .readSlot s = .next (inService readSlot (taken 0x12#8 s)) :=
    congrArg _ (takeCommand_idle free _ _)
  have candidates : exec .readCandidate s = .next (outsideGeometryFault readCandidate (taken 0x13#8 s)) :=
    congrArg _ (takeCommand_idle free _ _)
  have patrols : exec .patrolStart s = .next (inService patrolStart (taken 0x14#8 s)) :=
    congrArg _ (takeCommand_idle free _ _)
  have stops : exec .patrolStop s = .next (outsideGeometryFault patrolStop (taken 0x15#8 s)) :=
    congrArg _ (takeCommand_idle free _ _)
  have tellsPatrol : exec .patrolStatus s = .next (outsideGeometryFault patrolStatus (taken 0x16#8 s)) :=
    congrArg _ (takeCommand_idle free _ _)
  have limits : exec .setGrantLimit s = .next (outsideGeometryFault setGrantLimit (taken 0x17#8 s)) :=
    congrArg _ (takeCommand_idle free _ _)
  refine ⟨fun early => ?_, fun service => ?_, fun early => ?_, fun other => ?_⟩
  · have barred (code : BitVec 8) (carry : State → State) :
        inService carry (taken code s) = complete .notReady (taken code s) :=
      inService_starting (s := taken code s) early carry
    exact ⟨refused_of_runs (remaps.trans (congrArg _ (barred ..))),
      refused_of_runs (slots.trans (congrArg _ (barred ..))),
      refused_of_runs (patrols.trans (congrArg _ (barred ..)))⟩
  · have carried (code : BitVec 8) (carry : State → State) : inService carry (taken code s) = carry (taken code s) :=
      inService_serving (s := taken code s) service carry
    have slot (within : v 0 ≤ 4095) : exec .readSlot s
        = .next (completeWith .done (slotData s (v 0)) (taken 0x12#8 s)) :=
      slots.trans (congrArg _ ((carried ..).trans (readSlot_within (s := taken 0x12#8 s) within)))
    refine ⟨fun beyond => ?_, fun within none => ?_, fun e within here => ?_, fun beyond => ?_, fun within free => ?_,
      fun within dead => ?_, fun line e within used here => ?_, fun bad => ?_, fun mode low high => ?_⟩
    · exact refused_of_runs
        (remaps.trans (congrArg _ ((carried ..).trans (readRemap_beyond (s := taken 0x11#8 s) beyond))))
    · exact refused_of_runs
        (remaps.trans (congrArg _ ((carried ..).trans (readRemap_none (s := taken 0x11#8 s) within none))))
    · have same : entryData (v 0) e = entry (v 0) e := entryData_eq ..
      rw [← same]
      exact answered_of_runs
        (remaps.trans (congrArg _ ((carried ..).trans (readRemap_some (s := taken 0x11#8 s) within here))))
    · exact refused_of_runs
        (slots.trans (congrArg _ ((carried ..).trans (readSlot_beyond (s := taken 0x12#8 s) beyond))))
    · have runs := slot within
      rw [slotData_free free] at runs
      exact answered_of_runs runs
    · have runs := slot within
      rw [slotData_dead dead] at runs
      exact answered_of_runs runs
    · have runs := slot within
      rw [slotData_inUse used here, entryData_eq] at runs
      exact answered_of_runs runs
    · exact refused_of_runs
        (patrols.trans (congrArg _ ((carried ..).trans (patrolStart_bad (s := taken 0x14#8 s) bad))))
    · exact patrolSet_of_runs
        (patrols.trans (congrArg _ ((carried ..).trans (patrolStart_good (s := taken 0x14#8 s) mode low high))))
  · have barred (code : BitVec 8) (carry : State → State) :
        outsideGeometryFault carry (taken code s) = complete .notReady (taken code s) :=
      outsideGeometryFault_fault (s := taken code s) early carry
    exact ⟨refused_of_runs (candidates.trans (congrArg _ (barred ..))),
      refused_of_runs (stops.trans (congrArg _ (barred ..))),
      refused_of_runs (tellsPatrol.trans (congrArg _ (barred ..))),
      refused_of_runs (limits.trans (congrArg _ (barred ..)))⟩
  · have carried (code : BitVec 8) (carry : State → State) :
        outsideGeometryFault carry (taken code s) = carry (taken code s) :=
      outsideGeometryFault_other (s := taken code s) other carry
    refine ⟨fun c here => ?_, fun beyond => ?_, ?_, ?_, fun bad => ?_, fun good => ?_⟩
    · have source : word c.source.code
          = match c.source with | .read => 0#32 | .patrol => 1#32 | .relocation => 2#32 := by
        cases c.source <;> rfl
      have runs := readCandidate_some (s := taken 0x13#8 s) here
      rw [source] at runs
      exact answered_of_runs (candidates.trans (congrArg _ ((carried ..).trans runs)))
    · exact answered_of_runs
        (candidates.trans (congrArg _ ((carried ..).trans (readCandidate_none (s := taken 0x13#8 s) beyond))))
    · exact patrolSet_of_runs (stops.trans (congrArg _ (carried ..)))
    · exact answered_of_runs (tellsPatrol.trans (congrArg _ ((carried ..).trans (patrolStatus_eq (taken 0x16#8 s)))))
    · exact refused_of_runs
        (limits.trans (congrArg _ ((carried ..).trans (setGrantLimit_bad (s := taken 0x17#8 s) bad))))
    · refine ⟨limitPlaced (taken 0x17#8 s), ?_, ⟨rfl, rfl⟩, rfl, ?_⟩
      · constructor <;> simp [limitPlaced, taken]
      · exact limits.trans (congrArg _ ((carried ..).trans (setGrantLimit_good (s := taken 0x17#8 s) good)))

end Sys2Proof.Machine
end
